-- ==== Sys2Proof/Word.lean ====
section
/-! DEFINITION. The word types of the manual and their plainest arithmetic: bytes, 16-, 32- and 64-bit words,
the 96-bit time of a Headwater counter (64 bits of ns over 32 bits of fraction, R55), sparse maps in canonical form,
and saturating counts (R10). -/

namespace Sys2Proof

/-- One byte. -/
abbrev Byte := BitVec 8
/-- A 16-bit field. -/
abbrev W16 := BitVec 16
/-- A register word (R8: reads and writes are atomic words of 32 bits). -/
abbrev W32 := BitVec 32
/-- A 64-bit field, kept as two register words (R40). -/
abbrev W64 := BitVec 64
/-- A Headwater time: ns in bits 95..32, fraction in units of 2⁻³² ns in bits 31..0 (R9, R55). -/
abbrev Time := BitVec 96

/-- A die lane of the tray: the aggregator serves up to 16 dies, lanes 0–15 (R15, R30). -/
abbrev Lane := Fin 16

/-- A sparse map by key. Its canonical form: keys strictly rising, and no entry equal to what an unlisted key
reads as (a default that each map's owner states). -/
abbrev SMap (α : Type) := List (Nat × α)

/-- A byte memory: unlisted bytes read 0 (the value each memory starts from; log entry 4). -/
abbrev Mem := List Host.Cell

/-- Whole ns of a time (R55). -/
def Time.ns (t : Time) : Nat := t.toNat / 4294967296

/-- Fraction of a time, 2⁻³² ns (R55). -/
def Time.frac (t : Time) : Nat := t.toNat % 4294967296

/-- The time of `n` whole ns, fraction 0. -/
def Time.ofNs (n : Nat) : Time := BitVec.ofNat 96 (n * 4294967296)

/-- A flag as a bit. -/
def b2n (b : Bool) : Nat := if b then 1 else 0

/-- Saturating increment of a 32-bit count (R10 in the counters' own width: it stays at all ones). -/
def satInc32 (w : W32) : W32 := if w = 0xFFFFFFFF then w else w + 1

/-- Saturating addition of a natural number to a 32-bit count. -/
def satAdd32 (w : W32) (n : Nat) : W32 := BitVec.ofNat 32 (min 4294967295 (w.toNat + n))

/-- Saturating increment of a 16-bit count. -/
def satInc16 (w : W16) : W16 := if w = 0xFFFF then w else w + 1

/-- Bits `lo + w − 1 .. lo` of a word, as a number. -/
def bitsOf (x lo w : Nat) : Nat := x / 2 ^ lo % 2 ^ w

/-- A word with bits `lo + w − 1 .. lo` replaced by `v` (cut to `w` bits) and every other bit kept. -/
def withBits (x : W32) (lo w v : Nat) : W32 :=
  BitVec.ofNat 32 (x.toNat - bitsOf x.toNat lo w * 2 ^ lo + (v % 2 ^ w) * 2 ^ lo)

/-- Sign extension of the low `w` bits of a number to an integer. -/
def signed (x w : Nat) : Int :=
  let y := x % 2 ^ w
  if y < 2 ^ (w - 1) then (y : Int) else (y : Int) - (2 ^ w : Nat)

/-- An integer as a two's complement number of `w` bits. -/
def twos (i : Int) (w : Nat) : Nat := (i % ((2 ^ w : Nat) : Int)).toNat

/-- An integer clamped to a signed range of ±`lim`. -/
def clampAbs (i : Int) (lim : Nat) : Int :=
  if (lim : Int) < i then lim else if i < -(lim : Int) then -(lim : Int) else i

end Sys2Proof
end

