-- ==== Sys2Proof/Syntax.lean ====
section
/-! DEFINITION. The commands of the block: one constructor of `Instr` per row of the opcode table, and the types of their
operands. An operand is what the command carries in from outside: a written value, a received cell or frame, the reading of
a partner or the result of an access to host memory. -/

namespace Sys2Proof.Machine

/-! ### Operands -/

/-- The part a page command addresses: the die unit of a lane, or the tray's aggregator. -/
inductive PartId where
  | die (l : Lane)
  | agg
  deriving DecidableEq, Repr

/-- The access sources that hold a shadow each (R40): `local` is the die's register port or the aggregator's BAR0,
`remote` the Tributary register cells or the aggregator's firmware cores. -/
inductive Src where
  | near | remote
  deriving DecidableEq, Repr

/-- Check result of a protected memory read (R49): clean, corrected in `bits` bits, or uncorrectable. The outside
supplies it, since bit flips in storage come from outside the block. -/
inductive Ecc where
  | ok
  | ce (bits : Nat)
  | ue
  deriving DecidableEq, Repr

/-- A 32-byte event body of R223. `scope` holds the whole SCOPE byte, `rsv` the reserved byte 0x03. -/
structure BoreEvent where
  typ : Nat
  qual : Nat := 0
  scope : Nat := 0
  partition : Nat := 0xFFFF
  seq : Nat := 0
  source : Nat := 0xFFFFFFFF
  dest : Nat := 0xFFFFFFFF
  exec : Nat := 0
  arg0 : Nat := 0
  arg1 : Nat := 0
  rsv : Nat := 0
  deriving DecidableEq, Repr

/-- A frame of a Bore pair as received (R222): START, the COPY byte, LINK_SEQ, the body and the CRC it carries. -/
structure PairFrame where
  start : Nat := 0x5B
  copy : Nat
  seq : Nat
  body : BoreEvent
  crc : Nat
  deriving DecidableEq, Repr

/-- What frames the body of a pair frame received (R222): START and the CRC. -/
structure PairEnds where
  start : Nat := 0x5B
  crc : Nat
  deriving DecidableEq, Repr

/-- A die whose copies of Bore's state, or of a broadcast on the die, an upset has made differ (R219): bit c of `copies`
stands for copy c. -/
structure UpsetDie where
  lane : Lane
  copies : Nat := 0
  deriving DecidableEq, Repr

/-- A die with the check results of the records that a command reads from its memory, in the order read (R117). -/
structure ReadDie where
  lane : Lane
  reads : List Ecc := []
  deriving DecidableEq, Repr

/-- An engine with the check result of the history word that its interval is read from (R183). -/
structure DueEngine where
  engine : Fin 640
  ecc : Ecc := .ok
  deriving DecidableEq, Repr

/-- A result tile, with the check result of the stored tile that it is compared with (R173). -/
structure ResultTile where
  words : List Nat
  ecc : Ecc := .ok
  deriving DecidableEq, Repr

/-- A cell's residence from its selection to the serializer in ns (R273), with the check result of its queue's memory
(R277). -/
structure Residence where
  ns : Nat
  ecc : Ecc := .ok
  deriving DecidableEq, Repr

/-- A sketch read out: the ns until it is in host memory, and the metric and bin whose residue check fails (R296, R298). -/
structure Readout where
  hostNs : Nat
  bad : Option (Nat × Nat) := none
  deriving DecidableEq, Repr

/-- A segment of a sketch (table Tree frames): OFFSET, TOTAL and its bytes. -/
structure SketchSeg where
  offset : Nat
  total : Nat
  bytes : List Byte
  deriving DecidableEq, Repr

/-- What an exchange abandoned by an adapter was (R85): a halt, drain or resume request to a core (R265), a gate response
(R198), a probe by its tag (R190), or another. -/
inductive Abandoned where
  | halt (core : Nat)
  | gateResponse
  | probe (tag : Nat)
  | other
  deriving DecidableEq, Repr

/-- What a stage-period monitor saw in a window (R95): handshakes counted, their self-limited time and the replica
ring's period in 1/256 ns, the ns its stage stood ready without a handshake, and the check result of the baseline word it
reads (R96). -/
structure MonSample where
  m : Nat
  live : Nat
  selfNs : Nat
  replica : Nat
  stall : Nat := 0
  ecc : Ecc := .ok
  deriving DecidableEq, Repr

/-- The stamp t4 of a TIME_RESP, and what the monitors saw in a window that the counter step it leads to closes (R60, R94). -/
structure RespStamp where
  t4 : Nat
  samples : List MonSample := []
  deriving DecidableEq, Repr

/-- What a target's identity read gave (R401): no acknowledged address, a block that failed its retries after some bytes,
or the record's bytes. -/
inductive IdentRead where
  | absent
  | readErr (bytes : Nat)
  | record (bs : List Byte)
  deriving DecidableEq, Repr

/-- What a core presents on one edge (R244, table Core trace tap record). -/
structure TapRec where
  brCount : Nat
  brTaken : Nat
  ind : Option (Nat × Nat × Nat × Nat)
  data : Option (Bool × Nat × Nat × Nat)
  status : Nat
  lp : Nat
  deriving DecidableEq, Repr

/-- The header of a received cell (R271) as its receiver judges it: a TYPE not valid for its direction, the queue, the
sequence number, the length, and SEG FIRST and LAST. -/
structure CellHdr where
  badType : Option Nat := none
  queue : Nat
  cseq : Nat
  len : Nat
  first : Bool := true
  last : Bool := true
  compressed : Bool := false
  late : Bool := false
  deriving DecidableEq, Repr

/-- The header of a received TRAIN cell, with the VERSION of its payload (R276). -/
structure TrainHdr where
  cell : CellHdr
  version : Nat := 1
  deriving DecidableEq, Repr

/-- A received Ethernet frame as its port sees it (R378, R379): the port (0 A, 1 B), the source address, the sequence and
LanId of its redundancy trailer where it has one, its bytes, and whether its FCS failed or it was a runt; and, of a frame of
the tree, VERSION, ORIGIN (`node`) and RELAY_SEQ of its payload header and the CRC-32 its payload ends with (R227, R311). -/
structure EthHdr where
  port : Fin 2
  src : Nat
  prp : Option (Nat × Nat) := none
  len : Nat := 64
  bad : Bool := false
  version : Nat := 1
  node : Nat := 0
  seq : Nat := 0
  crc : Nat := 0
  deriving DecidableEq, Repr

/-- Where an event at the aggregator came from (R222, R225): the pairs of a die, or the up port. -/
inductive BoreFrom where
  | die (l : Lane)
  | up
  deriving DecidableEq, Repr

/-- A BCAST frame's body (table Tree frames); OP is 1 JOB_START, 2 POWER_STEP, 3 CONFIRM, 4 ABORT. -/
structure Bcast where
  id : Nat
  op : Nat
  adopted : Bool := false
  adoptFor : Nat := 0
  decideAt : Nat
  body : BoreEvent
  deriving DecidableEq, Repr

/-- What a Levee conversion gave (R341, R346, R448). -/
inductive AdcRead where
  | sample (v : W16)
  | openInput
  | outOfRange
  deriving DecidableEq, Repr

/-- What a read of host memory gave (R363): the bytes, or a fault (cause 1 translation, 2 Unsupported Request or Completer
Abort). -/
inductive HostRead where
  | fault (cause : Nat)
  | data (bs : List Byte)
  deriving DecidableEq, Repr

/-- Which message a firmware command serves (R328, R366): of a ring pair, or of an FW_MSG descriptor by ring and index. -/
inductive MsgFrom where
  | pair (p : Fin 4)
  | desc (ring : Fin 64) (index : Nat)
  deriving DecidableEq, Repr

/-- What a sideband transaction gave (R331): not acknowledged or failed PEC or parity, or its bytes and status byte, with
the sensor a periodic read sampled, where it was one (R302). -/
inductive SbResult where
  | nak
  | done (bs : List Byte) (status : Byte)
  deriving DecidableEq, Repr

/-- An image as the ROM verifier meets it (R332): its header bytes, and the outcome of the checks against the key in the
mask ROM: 0 all pass, 2 KEY_ID, 3 hash, 4 signature. -/
structure ImageSeen where
  header : List Byte
  crypt : Nat
  deriving DecidableEq, Repr

/-- Which of a die's two paths fell silent (R305): its lane, or one of its Bore receive lanes. -/
inductive PathLoss where
  | data
  | bore (copy : Fin 3)
  deriving DecidableEq, Repr

/-- What a PTP message brought (R380–R382). `exchange`: it completes a Sync and delay exchange on the slave port, with the
timestamps and summed correction fields in 2⁻¹⁶ ns, the grandmaster, and whether a correction field was all ones but the
sign. `message`: any message as the other port passes it on, with its correctionField and residence, and whether it is a Sync
or Delay_Req. `states`: the port states and the slave port that the PTP task has settled. -/
inductive PtpMsg where
  | exchange (t1 t2 t3 t4 : Nat) (corrSync corrDelay : Int) (gm : Nat) (invalid : Bool)
  | message (correction residence : Int) (timed : Bool)
  | states (slave : Fin 2) (portA portB : Nat)
  deriving DecidableEq, Repr

/-- One end of a Tributary lane: the die's, or the aggregator's (R276). -/
inductive LaneEnd where
  | die (l : Lane)
  | agg (l : Lane)
  deriving DecidableEq, Repr

/-- A request that waits for a die (R375): of a lane by its REQ_ID, of a remote die by the number its frame carries, or the
bulk load of a descriptor. -/
inductive ReqName where
  | lane (l : Lane) (id : Nat)
  | remote (id : Nat)
  | load (ring : Fin 64) (index : Nat)
  deriving DecidableEq, Repr

/-- The integrator's ties of a die (chapter 18): taps and engines tied absent, each engine's nearest temperature and
voltage points, and OPTAP_PRESENT. An unlisted tap or engine is present; an unlisted point is 0. -/
structure Ties where
  tapAbsent : SMap Bool := []
  engAbsent : SMap Bool := []
  nearT : SMap Nat := []
  nearV : SMap Nat := []
  opTap : Bool := false
  deriving DecidableEq, Repr

end Sys2Proof.Machine

namespace Sys2Proof

/-! ### Commands -/

open Sys2Proof.Machine

/-- The commands of the block, one constructor per row of spec/opcode_table.json, in its order. -/
inductive Instr where
  /-- R41: A write of PAGE_CTL.ENABLE starts a page's enable sequence, or sets ENABLE_PENDING while the page is
  DRAINING. -/
  | pageEnable (part : PartId) (page : Fin 4096)
  /-- R41: A write of PAGE_CTL.DRAIN stops new work and drains the page, abandons an enable in progress, or leaves
  FAULTED. -/
  | pageDrain (part : PartId) (page : Fin 4096)
  /-- R39: A write of PAGE_CTL.SOFT_CLEAR zeroes ERR_STAT, ERR_FIRST, LATE_COUNT, EVENT_COUNT and the listed block
  statistics. -/
  | softClear (part : PartId) (page : Fin 4096)
  /-- R38: A write of 1 to PAGE_CTL.LOCK locks the page's configuration until power is removed. -/
  | pageLock (part : PartId) (page : Fin 4096)
  /-- R41: A page's enable sequence completes and the page enters ACTIVE. -/
  | enableDone (part : PartId) (page : Fin 4096)
  /-- R41: A page's drain completes and the page enters OFF, or enters ENABLING when an enable is pending. -/
  | drainDone (part : PartId) (page : Fin 4096)
  /-- R42: A page that has stayed in DRAINING for its drain bound takes the page-fault input and enters FAULTED. -/
  | drainTimeout (part : PartId) (page : Fin 4096)
  /-- R46: A W1C write clears ERR_STAT bits, and re-arms ERR_FIRST when ERR_STAT becomes zero. -/
  | errStatClear (part : PartId) (page : Fin 4096) (w : W32)
  /-- R47: A write of ERR_INJECT.ARM arms one injection of a common error into the page's next matching operation. -/
  | errInjectArm (part : PartId) (page : Fin 4096) (w : W32)
  /-- R38: A write to a register that has no row of its own is applied, or refused with ACCESS_ERR. -/
  | registerWrite (part : PartId) (addr : BitVec 24) (w : W32)
  /-- R34: An access to an unassigned page or offset reads zero, writes nothing and sets ERR_STAT.ACCESS_ERR. -/
  | unassignedAccess (part : PartId) (addr : BitVec 24) (w : Option W32)
  /-- R40: A read of the low word of a wide field, TIME included, latches its high word and fraction word into the
  source's shadow. -/
  | wideLowRead (part : PartId) (src : Src) (addr : BitVec 24)
  /-- R40: A read of a high word returns the shadow, or returns the live value when its low word was not the last low
  word read. -/
  | highWordRead (part : PartId) (src : Src) (addr : BitVec 24)
  /-- R49: A read of IND_DATA returns the addressed memory word after correction, updates IND_STAT and may auto-
  increment the address. -/
  | indDataRead (part : PartId) (page : Fin 4096) (src : Src) (ecc : Ecc)
  /-- R50: A write of IND_DATA holds a lower half or commits a 64-bit word, or is refused for range, UE, LOCK or a
  region in use. -/
  | indDataWrite (part : PartId) (page : Fin 4096) (w : W32) (ecc : Ecc)
  /-- R391: VQ_VDD becomes valid and the die unit starts from reset values. -/
  | diePowerUp (l : Lane) (slot : Fin 16) (ties : Ties)
  /-- R391: 50 µs after VQ_VDD valid and reference present, or 1 ms after VQ_VDD valid without a reference, the die
  unit becomes ready with its self-enabled pages ACTIVE. -/
  | dieReady (l : Lane) (refAt : Option Nat)
  /-- R413: VQ_VDD falls to 0.51 V or below: all state is lost, VQ_READY falls and the outputs are clamped. -/
  | diePowerLoss (l : Lane)
  /-- R392: A register-port access before ready is acknowledged with no effect and recorded in ID_STAT.EARLY_ACCESS.
  -/
  | earlyAccess (l : Lane)
  /-- R396: A write to GLOBAL GDID_SET makes a GDID assignment or release pending, cancels it, or is refused. -/
  | gdidSet (l : Lane) (w : W32)
  /-- R65: No Headwater reference edge arrives within 50 ns: the counter moves to the backup oscillator and the
  REF_LOSS input applies. -/
  | refLoss (l : Lane)
  /-- R65: Reference edges have returned for 1 µs without a gap: REF_LOSS clears and the REF_RETURN input applies. -/
  | refReturn (l : Lane)
  /-- R59: At each 1 ms multiple of its time, the aggregator sends a TIME_SYNC cell stamped t1. -/
  | exchangeStart
  /-- R273: The die receives TIME_SYNC, stamps t2 and sends TIME_DELAY stamped t3. -/
  | timeSync (l : Lane) (h : CellHdr) (exch : Nat) (t1 : Nat) (cDown : Nat)
  /-- R273: The aggregator receives TIME_DELAY, stamps t4 and returns it in TIME_RESP. -/
  | timeDelay (l : Lane) (h : CellHdr) (exch : Nat)
  /-- R60: The die receives TIME_RESP, computes offset and delay, and applies the measurement input to the discipline
  state machine. -/
  | timeResp (l : Lane) (h : CellHdr) (exch : Nat) (stamp : RespStamp)
  /-- R59: 1.5 ms after the last complete exchange, and every 1 ms after that, one incomplete exchange is counted in
  MISSED_COUNT. -/
  | exchangeIncomplete (l : Lane)
  /-- R61: HOLDOVER_NS has elapsed in HOLDOVER and UNSYNCED is set. -/
  | holdTimeout (l : Lane)
  /-- R63: A write of HEADWATER_CTL.ARM_RESTEP arms one re-step. -/
  | armRestep (l : Lane)
  /-- R63: A write of HEADWATER_CTL.DISARM clears RESTEP_ARMED. -/
  | disarm (l : Lane)
  /-- R64: A change of SERVO_EN hands the rate to the host's TRIM_SET or back to the servo, and loads the integral. -/
  | servoEnWrite (l : Lane) (enable : Bool)
  /-- R68: Headwater time reaches the next window boundary, and the open window closes while the next one opens. -/
  | windowBoundary (l : Lane) (ss : List MonSample)
  /-- R69: A write of WINDOW_CTL.SWITCH_ARM arms a window-length switch at NEXT_BASE, or is refused. -/
  | switchArm (l : Lane)
  /-- R71: Headwater time reaches a pooled event's execution time and the event executes. -/
  | triggerFire (l : Lane)
  /-- R85: A partner leaves a 4-phase exchange incomplete for 1 µs, and the adapter abandons the exchange. -/
  | adapterTimeout (l : Lane) (group : Fin 5) (port : Nat) (phase : Nat) (what : Abandoned)
  /-- R89: A stage reaches its deadline instant without delivering: LATE_COUNT is incremented and ERR_STAT.LATE is
  set. -/
  | deadlineMiss (part : PartId) (page : Fin 4096) (stage : Nat) (unit : Nat)
  /-- R92: A stage is still incomplete at HANG_MULT times its deadline: a HANG record is emitted and the page faults.
  -/
  | stageHang (part : PartId) (page : Fin 4096) (stage : Nat) (unit : Nat)
  /-- R99: A write of SELFTIME_CTL.BASE_CLEAR clears VALID and the learned counts in every baseline cell. -/
  | baseClear (l : Lane)
  /-- R106: A step-marker exchange is accepted, timestamped and attributed to a window, and a step record is produced.
  -/
  | stepMarker (l : Lane) (step : W32) (time : Nat) (lost : Option Nat)
  /-- R109: Once Sluice can accept again, stored step records are sent oldest first. -/
  | stepStoreSend (l : Lane)
  /-- R110: Spring's close completes, and the deltas and window values are handed to Riffle. -/
  | deltasReady (l : Lane)
  /-- R103: A write of TAP_CTL.CLR schedules the tap's counters to be cleared at the next boundary. -/
  | tapClr (l : Lane) (tap : Fin 2048)
  /-- R112: A write to SPRING_CTL, HP_SEL, SEL_GEN or RAW_COUNT takes effect at the first window boundary after it. -/
  | springConfigWrite (l : Lane) (addr : BitVec 24) (w : W32)
  /-- R117: Once Sluice can accept again, retained window records are sent oldest first, marked HELD. -/
  | retentionSend (x : ReadDie)
  /-- R132: A write of RIFFLE_CTL.VALIDATE starts validation of the spare bank, or is refused. -/
  | riffleValidate (l : Lane)
  /-- R132: Validation of the spare bank completes: SPARE_VALID is set, or VAL_ERR is written and VAL_FAIL raised. -/
  | riffleValidationDone (l : Lane) (word : Nat) (ecc : Ecc)
  /-- R134: A write of RIFFLE_CTL.SWAP_ARM arms a bank swap at SWAP_INDEX, or is refused. -/
  | riffleSwapArm (l : Lane)
  /-- R126: Riffle finishes the feature vector of a window and delivers it to Eddy. -/
  | featuresReady (l : Lane) (word : Nat) (ecc : Ecc)
  /-- R159: A write of EDDY_CTL.VALIDATE starts validation of a slot's staging side. -/
  | eddyValidate (l : Lane) (slot : Fin 4)
  /-- R159: Eddy validation completes: the staging side becomes STAGED, or returns to IDLE with VAL_FAIL. -/
  | eddyValidationDone (l : Lane) (word : Nat) (ecc : Ecc)
  /-- R160: A write of EDDY_CTL.SWAP_ARM arms a group of loads and unloads at SWAP_INDEX, or is refused whole. -/
  | eddySwapArm (l : Lane) (w : W32)
  /-- R154: The last scored slot of a window completes, and the window's score entries go to Sluice. -/
  | scoresDelivered (l : Lane) (times : List Nat) (reads : List (Nat × Nat × Ecc))
  /-- R179: An engine's scheduled probe falls due one interval after the previous one, and replaces an unissued probe
  as STARVED. -/
  | probeDue (l : Lane) (x : DueEngine)
  /-- R177: A probe that holds credit and a permitted slot is issued on PRB_ISS. -/
  | probeIssue (l : Lane) (e : Fin 640) (busy : Bool) (load : Nat)
  /-- R177: STEAL_WAIT_US has passed without an idle slot, and the waiting probe may steal a busy slot. -/
  | stealWaitExpired (l : Lane) (e : Fin 640)
  /-- R173: A probe result returns on PRB_RES and is checked against the reference, a peer or a captured tile. -/
  | probeResult (l : Lane) (tag : Nat) (status : Nat) (res : ResultTile)
  /-- R188: A queued self-test starts once fewer than 8 are running. -/
  | selftestStart (l : Lane)
  /-- R190: No result within PROBE_TIMEOUT_US: the probe is abandoned and judged NO_RESULT. -/
  | probeTimeout (l : Lane) (tag : Nat)
  /-- R187: An ENG_ERR report is counted and recorded, sends a suspect to Oxbow, and triggers a self-test. -/
  | engineErr (l : Lane) (e : Fin 640) (code : Nat)
  /-- R186: A write of CTL.REF_RETEST starts the reference self-test and pauses probing. -/
  | refRetest (l : Lane)
  /-- R186: The reference self-test ends: probing resumes, or REF_OK clears and exact-set probing stops. -/
  | refSelftestDone (l : Lane) (pass : Bool) (tile : Nat) (mac : Nat)
  /-- R187: A write of GAUGE_SELFTEST_REQ requests a targeted self-test of an engine. -/
  | selftestReq (l : Lane) (w : W32)
  /-- R193: A write of CTL.REPLAY_GO runs one probe from the given generator inputs and reports pass, fail or a CRC.
  -/
  | replayGo (l : Lane)
  /-- R181: A write of ENG_CTL.LEVEL_WR sets an engine's level, and unpins it together with UNPIN. -/
  | levelWr (l : Lane) (e : Fin 640) (w : W32)
  /-- R175: A production tile arrives on TAP_DATA and is stored in a tap entry for a tap replay. -/
  | tapCapture (l : Lane) (e : Fin 640) (fmt : Nat) (a : List Nat) (b : List Nat) (c : List Nat)
  /-- R200: The collective engine presents a gate request for a step, and it is taken into a slot or answered REFUSED.
  -/
  | gateRequest (l : Lane) (step : W32)
  /-- R201: A request reaches its decision instant and is released, or held when a hold cause stands. -/
  | decideAt (l : Lane)
  /-- R205: The engine accepts a RELEASE or DISCARD response, the slot frees and the next slot becomes head. -/
  | gateResponseAck (l : Lane)
  /-- R198: 10 µs after the engine abandons a response exchange, Oxbow presents the same response again. -/
  | responseRepresent (l : Lane)
  /-- R207: A VERDICT_CTL write with code RELEASE releases the held step that matches step and tag, or is refused. -/
  | verdictRelease (l : Lane) (tag : W16)
  /-- R208: A VERDICT_CTL write with code DISCARD discards the held step and marks later steps to hold with FOLLOWS.
  -/
  | verdictDiscard (l : Lane) (tag : W16)
  /-- R211: A write of CTL.DISPUTE_SET puts the die into DISPUTED with the tag and unit of DISPUTE_ARG. -/
  | disputeSet (l : Lane)
  /-- R213: A write of CTL.DISPUTE_CLR with the tag in force clears DISPUTED, releasing dispute-only holds when
  CLR_RELEASE is set. -/
  | disputeClr (l : Lane) (w : W32)
  /-- R211: A DISPUTE cell received on Tributary puts the die into DISPUTED. -/
  | disputeCell (l : Lane) (h : CellHdr) (tag : Nat) (unit : Nat)
  /-- R220: A Bore copy arrives and is voted: two agreeing copies make the event act, be acknowledged, pooled or
  refused. -/
  | boreFrameReceive (l : Lane) (pair : Fin 3) (copy seq : Nat) (ends : PairEnds) (e : BoreEvent)
  /-- R220: VOTE_WINDOW_NS passes without a majority, or without the third copy, and NO_MAJORITY or a copy
  disagreement is recorded. -/
  | voteWindowExpired (l : Lane)
  /-- R221: A write of BORE_CTL.COPY_RESET marks all three copies up. -/
  | copyReset (l : Lane)
  /-- R238: A write of BORE_CTL.LAUNCH sends the event in the LAUNCH registers on all three copies, or is refused. -/
  | launch (x : UpsetDie)
  /-- R225: The tray aggregator votes an event from a die's pairs, stamps it if needed, echoes it to its partition's
  dies and relays it. -/
  | aggBoreEcho (src : BoreFrom) (copies : List (Option PairFrame))
  /-- R227: A relay frame admitted through the fences is echoed in three copies down the pairs of the partition's
  dies. -/
  | relayFrameReceive (h : EthHdr) (group : Nat) (e : BoreEvent)
  /-- R229: The aggregator takes an EVENT_ACK from a die and counts it toward the broadcast's READY. -/
  | eventAckReceive (l : Lane) (copies : List (Option PairFrame))
  /-- R236: A waiting snapshot part is handed to Sluice, and SNAP_BUSY clears after the last of them. -/
  | snapshotPartSend (l : Lane)
  /-- R231: A control core arrives at a barrier context and is counted. -/
  | coreArrive (x : UpsetDie) (core : Fin 64) (ctx : Fin 256) (sense : Bool)
  /-- R231: A write of ARRIVE counts a register arrival of COUNT at the context. -/
  | registerArrive (x : UpsetDie) (ctx : Fin 256) (sense : Bool) (count : W16)
  /-- R232: A write of CTX_CTL.RESET resets the context and releases its waiters with ABORTED. -/
  | contextReset (l : Lane) (ctx : Fin 256)
  /-- R232: A write of CTX_CTL.EN moves a DISABLED context to COUNTING. -/
  | contextEnable (l : Lane) (ctx : Fin 256)
  /-- R244: A core's trace tap record is taken and turned into packets, or discarded as TAP_ERROR. -/
  | coreTapRecord (l : Lane) (core : Fin 64) (rcd : TapRec)
  /-- R250: 1 µs after its oldest unframed byte entered, a core's FIFO bytes are formed into a frame. -/
  | frameFormTimeout (l : Lane) (core : Fin 64)
  /-- R250: A ready frame is served round-robin to the port and the buffer sinks. -/
  | frameSend (l : Lane)
  /-- R247: A write of CTL.SYNC_NOW places a SYNC with reason 1 in the core's stream. -/
  | syncNow (l : Lane) (core : Fin 64)
  /-- R258: A write of CTL.HALT sends a halt request to the core with cause 1. -/
  | coreHalt (l : Lane) (core : Fin 64)
  /-- R258: A write of CTL.RESUME sends a resume request to a HALTED core, or is refused. -/
  | coreResume (l : Lane) (core : Fin 64)
  /-- R258: The core reports HALTED, Meander emits a HALT packet and requests a drain. -/
  | coreHalted (l : Lane) (core : Fin 64)
  /-- R258: The core reports DRAINED and enters HALTED as HALTED_DRAINED. -/
  | coreDrained (l : Lane) (core : Fin 64)
  /-- R258: The core reports RUNNING after a resume, and a waiting halt is sent if HALT_AFTER is set. -/
  | coreRunning (l : Lane) (core : Fin 64)
  /-- R257: A write of comparator or watchpoint settings clears COMP_SYNCED and sends COMP_WR to the core. -/
  | comparatorWrite (l : Lane) (core : Fin 64) (off : BitVec 12) (w : W32)
  /-- R257: The core acknowledges the new settings and COMP_SYNCED is set. -/
  | compAck (l : Lane) (core : Fin 64)
  /-- R257: A comparator or watchpoint match sets MATCH_PEND and takes its HALT, TRIGGER and CROSS actions. -/
  | compMatch (l : Lane) (core : Fin 64) (index : Fin 12) (action : Fin 8)
  /-- R260: A waiting cross-halt launch goes out as TRACE_TRIGGER with HALT through the Bore launch path. -/
  | crossLaunch (x : UpsetDie)
  /-- R253: A write of BUF_CMD.ARM restarts the buffer in WRAPPING. -/
  | bufArm (l : Lane)
  /-- R253: A write of BUF_CMD.DISARM returns the buffer to OFF and keeps its contents. -/
  | bufDisarm (l : Lane)
  /-- R254: A write of BUF_CMD.TRIG_NOW triggers the buffer from the register. -/
  | trigNow (l : Lane)
  /-- R255: A write of BUF_CMD.UPLOAD starts sending the buffer's valid frames as trace records. -/
  | bufUpload (l : Lane)
  /-- R255: A waiting trace record is handed over, and UPLOAD_DONE is set after the last of them. -/
  | traceUploadSend (l : Lane)
  /-- R266: A compression job ends as DONE, NO_GAIN or OUT_OF_SPACE, and its cells are queued. -/
  | compressionDone (l : Lane)
  /-- R279: The scheduler selects the next cell, strict queues first and then by deficit and gate, and sends it. -/
  | cellSend (lane : LaneEnd) (resid : Residence)
  /-- R282: A 125 µs gate cycle begins and the queue samples are taken. -/
  | gateCycleBoundary (lane : LaneEnd)
  /-- R282: A gate-list entry's duration ends and the next entry's OPEN bits apply. -/
  | gclEntryAdvance (lane : LaneEnd)
  /-- R284: A write of GCL_CTL.SWITCH_ARM arms the staging list for the next cycle, or is refused. -/
  | gclSwitchArm (lane : LaneEnd)
  /-- R272: The aggregator receives a RECORD cell and reassembles it per queue into a record. -/
  | recordCell (l : Lane) (h : CellHdr) (bs : List Byte) (fill : Nat)
  /-- R274: The die receives a REG_REQ cell and performs its accesses once room for its REG_RESP is reserved. -/
  | regReq (l : Lane) (h : CellHdr) (id : Nat) (op : Nat) (nwords : Nat) (addr : Nat) (data : List W32) (es : List Ecc)
  /-- R274: A waiting REG_REQ or BULK cell is performed when room for its response frees. -/
  | regReqPerform (l : Lane) (es : List Ecc)
  /-- R375: The aggregator receives a REG_RESP and completes the matching register descriptor, or discards a late
  response. -/
  | regResp (l : Lane) (h : CellHdr) (id : Nat) (status : Nat) (nwords : Nat) (data : List W32)
  /-- R275: The die receives a BULK cell, writes its data to the target memory or refuses it, and returns BULK_ACK. -/
  | bulk (l : Lane) (h : CellHdr) (id : Nat) (target : Nat) (last : Bool) (offset : Nat) (data : List Byte)
  /-- R275: The aggregator receives a BULK_ACK toward its BULK_LOAD descriptor. -/
  | bulkAck (l : Lane) (h : CellHdr) (id : Nat) (status : Nat) (offset : Nat)
  /-- R187: The die receives a SELFTEST_REQ cell and triggers a targeted self-test of the engine. -/
  | selftestReqCell (l : Lane) (h : CellHdr) (engine : Nat) (tag : Nat)
  /-- R291: The aggregator receives a BORE_NOTE, updates job membership, compares it with the EVENT_ACK, and logs it.
  -/
  | boreNote (l : Lane) (h : CellHdr) (e : BoreEvent) (time : Nat) (status : Nat)
  /-- R276: A TRAIN cell is received, TRAINED or PEER_TRAIN applies, and the peer's PORT and ID are latched. -/
  | train (lane : LaneEnd) (h : TrainHdr) (role port id : Nat) (refuse : Option Nat)
  /-- R276: In TRAINING after LOCK, a TRAIN cell is sent every 10 µs. -/
  | trainSend (lane : LaneEnd)
  /-- R276: The PMA has adapted and the FEC is aligned on a lane in TRAINING. -/
  | linkLock (lane : LaneEnd)
  /-- R276: Loss of lock, an FEC burst or a CRC burst sends the lane back to TRAINING and raises LINK_DOWN. -/
  | linkLoss (lane : LaneEnd) (cause : Nat) (corrected : Nat) (bad : Nat) (at_ : Nat)
  /-- R276: 20 ms in TRAINING without TRAINED restarts adaptation. -/
  | trainTimeout (lane : LaneEnd)
  /-- R276: A write of link CTL.RETRAIN forces the lane to retrain. -/
  | retrain (lane : LaneEnd)
  /-- R292: A tray takes a step record into the merge context of its step, opening one if needed, and closes it once
  every expected die has reported. -/
  | stepRecordReceive (l : Lane) (bs : List Byte)
  /-- R292: STEP_WAIT_NS after a context's first record or child sketch, the context closes and counts the absent
  members missing. -/
  | closeExpired (job : Nat) (step : Nat)
  /-- R298: A merge completes and its sketch is sent to the parent, or handed to the host at the root. -/
  | sketchSend (r : Readout)
  /-- R296: A child sketch is checked and merged into its context, or rejected. -/
  | sketchReceive (h : EthHdr) (seg : SketchSeg)
  /-- R302: Every DRIFT_PERIOD_MS, each entity's features are set from its rules and scoring starts. -/
  | driftPeriod
  /-- R303: Scoring of the entities completes and their alarm machines run. -/
  | driftScoringDone
  /-- R304: Every 600 s, a die left in OBSERVE with an entity still in DRIFT is asked for again. -/
  | expelRetry (l : Lane)
  /-- R307: The budget holder receives an EXPEL_REQ and grants or downgrades it against the partition's budget. -/
  | expelReq (h : EthHdr) (gdid : Nat) (partition : Nat) (entity : Nat) (score : Nat)
  /-- R307: The requester receives GRANT or DOWNGRADE and sets EXPEL_REC or OBSERVE. -/
  | expelResp (h : EthHdr) (gdid : Nat) (result : Nat) (cause : Nat)
  /-- R307: At each Headwater minute boundary the oldest budget bucket is zeroed and OVER may clear. -/
  | budgetMinute
  /-- R305: DISPUTE_SILENT_NS without a cell or a Bore block clears DATA_ALIVE or MGMT_ALIVE. -/
  | aliveExpired (l : Lane) (path : PathLoss)
  /-- R305: DATA_ALIVE and MGMT_ALIVE have differed for DISAGREE_NS, and the paths disagree. -/
  | disagreeExpired (l : Lane)
  /-- R306: A write of DIE_STATE.DISPUTE_CLR with the tag in force re-arms the path comparison for the die. -/
  | dieDisputeClr (l : Lane) (tag : W16)
  /-- R308: A write of DIE_STATE.REC_CLR clears EXPEL_REC and OBSERVE. -/
  | recClr (l : Lane)
  /-- R312: A node receives a JOB_START or POWER_STEP BCAST, answers HOP_ACK, and forwards it or delivers the body to
  its dies. -/
  | bcastReceive (h : EthHdr) (m : Bcast) (child : Option Nat)
  /-- R312: A parent receives a child's HOP_ACK. -/
  | hopAck (h : EthHdr) (id : Nat) (op : Nat)
  /-- R312: A child's HOP_ACK is missing after HOP_ACK_NS: the child is failed and its children are adopted via
  alternates. -/
  | hopAckTimeout (id : Nat) (node : Nat)
  /-- R312: After HOP_ACK_NS of gathering EVENT_ACKs, the tray sends READY. -/
  | ackGatherExpired (id : Nat)
  /-- R312: A node receives a child's READY and sums it into its own. -/
  | ready (h : EthHdr) (id : Nat) (op : Nat) (pooled : Nat) (refused : Nat) (unreached : Nat) (node : Nat)
  /-- R313: At T minus the margin the root sends CONFIRM if every member pooled, and otherwise ABORT. -/
  | bcastDecide (id : Nat)
  /-- R313: A node receives BCAST CONFIRM, forwards it and acknowledges it. -/
  | confirm (h : EthHdr) (m : Bcast) (child : Option Nat)
  /-- R313: A node receives BCAST ABORT and delivers JOB_ABORT or the POWER_STEP cancel for T. -/
  | bcastAbort (h : EthHdr) (m : Bcast) (body : BoreEvent) (child : Option Nat)
  /-- R313: At T minus the margin over 4, a missing CONFIRM acknowledgement makes the root send ABORT. -/
  | confirmAckCheck (id : Nat)
  /-- R314: A tray without CONFIRM at T minus the margin over 2 sends the abort or cancel to its own dies. -/
  | traySelfAbort (id : Nat)
  /-- R314: At T, a tray's CONFIRM acknowledgement still missing raises START_SPLIT at the root. -/
  | startSplit (id : Nat)
  /-- R316: A write of CTL.FREEZE_NOW, or an enabled cause, starts a recorder freeze. -/
  | freezeNow
  /-- R316: A write of CTL.UNFREEZE ends a freeze. -/
  | unfreeze
  /-- R316: FREEZE_POST_MS after the freeze cause, the window rings stop taking records. -/
  | freezePostExpired
  /-- R316: FREEZE_MAX_S after it began, a freeze ends automatically. -/
  | freezeMaxExpired
  /-- R303: A write of MODEL_CTL.VALIDATE validates the staged drift model of a class. -/
  | modelValidate (cls : Fin 8)
  /-- R303: A write of MODEL_CTL.SWAP_ARM swaps a validated drift model in at the next drift period. -/
  | modelSwapArm (cls : Fin 8)
  /-- R323: A core's watchdog expires: the core is reset and its tasks are adopted by other cores. -/
  | watchdogExpiry (c : Fin 8) (lost : List Nat)
  /-- R323: A reset core finishes its self-check and enters SPARE. -/
  | coreSelfCheckDone (c : Fin 8)
  /-- R322: A task writes a checkpoint, and a task away from its home core returns to it. -/
  | checkpoint (task : Fin 8)
  /-- R322: A task that goes 1 ms without a checkpoint raises CHECKPOINT_LATE. -/
  | checkpointLate (task : Fin 8)
  /-- R328: The host writes a message ring's REQ_TAIL, and firmware takes the new requests in ring order. -/
  | reqTail (pair : Fin 4) (w : W32)
  /-- R331: A PING message returns VERSION and FW_STATE. -/
  | ping (src : MsgFrom)
  /-- R331: A GET_INFO message returns the versions, SVN, schema and core and task placement. -/
  | getInfo (src : MsgFrom)
  /-- R331: A GET_LOG message returns bytes of the firmware log. -/
  | getLog (src : MsgFrom)
  /-- R334: An FW_VERIFY message starts the ROM verifier on the staged image. -/
  | fwVerify (src : MsgFrom)
  /-- R335: An FW_ACTIVATE message starts a handoff to the verified image. -/
  | fwActivate (src : MsgFrom)
  /-- R334: An FW_COMMIT message commits the image in PROBATION to flash. -/
  | fwCommit (src : MsgFrom)
  /-- R334: An FW_REVERT message drops the verified copy, or reverts to the old image from PROBATION. -/
  | fwRevert (src : MsgFrom)
  /-- R331: An SB_READ message reads bytes from a sideband device. -/
  | sbRead (src : MsgFrom)
  /-- R331: An SB_WRITE message writes bytes to a sideband device. -/
  | sbWrite (src : MsgFrom)
  /-- R331: An SB_SCAN message returns the bitmap of acknowledging addresses on a bus. -/
  | sbScan (src : MsgFrom)
  /-- R331: A sideband transaction completes and its response is written. -/
  | sbTransactionDone (bus : Fin 4) (res : SbResult) (sensor : Option (Nat × Int))
  /-- R331: A sideband transaction exceeds 25 ms and completes TIMEOUT. -/
  | sbTimeout (bus : Fin 4)
  /-- R407: An SB_ALERT_N input emits an SB_ALERT event and rereads the part record at that address. -/
  | sbAlert (bus : Fin 4) (addr : Nat)
  /-- R334: Verification of the staged image completes with VERIFY_OK or VERIFY_FAIL. -/
  | imageVerifyDone (crypt : Nat)
  /-- R334: Every task of the new image runs from handed-over state, and the update enters PROBATION. -/
  | newReady
  /-- R334: The new image refuses the schema or state, and the old image resumes. -/
  | newRefuse
  /-- R334: HANDOFF_MAX_MS passes without NEW_READY and the handoff is refused. -/
  | handoffTimeout
  /-- R334: PROBATION_S elapses and the new image is committed. -/
  | probationEnd
  /-- R334: A host write into the staging area is stored, or discarded while verifying or in handoff. -/
  | stagingWrite (off : Nat) (bs : List Byte)
  /-- R333: A write of CTL.ROM_LOAD in DOWN verifies the staged image and boots it. -/
  | romLoad
  /-- R333: The ROM loader accepts a flash image and FW_STATE reaches RUNNING, or no image is accepted and FW_STATE is
  DOWN. -/
  | bootLoadDone (primary : ImageSeen) (backup : ImageSeen)
  /-- R336: A write of HEARTBEAT with the current GEN restarts the host timer, and any other write is counted stale.
  -/
  | heartbeat (w : W32)
  /-- R336: A write of ATTACH with GENERATION plus 1 starts a new host instance and resets the rings. -/
  | attach (w : W32)
  /-- R336: A write of CTL.ATTACH_DONE opens the DMA gate and reports any absence. -/
  | attachDone
  /-- R336: A write of CTL.DETACH closes the DMA gate cleanly. -/
  | detach
  /-- R336: HOST_TIMEOUT_MS passes without a valid heartbeat: HOST_ABSENT, and the DMA gate closes. -/
  | hostTimeout
  /-- R362: Bus Master Enable cleared, link loss, PERST_N or an FLR closes the DMA gate and raises PCIE_LINK. -/
  | busLoss (cause : Nat)
  /-- R343: A Levee channel conversion completes and the channel's level, shut state and fault are updated. -/
  | adcConversion (chan : Fin 96) (res : AdcRead)
  /-- R345: VRM_OFF_US after SHUTDOWN, the die's VRM enables drop. -/
  | vrmOffExpired (l : Lane)
  /-- R345: A write of SHUT_CLR releases a die's shutdown and restores its VRMs, or is refused. -/
  | shutClr (w : W32)
  /-- R343: A write of FORCE_THROTTLE sets a floor on a die's throttle level. -/
  | forceThrottle (w : W32)
  /-- R349: A write to a Levee limit field is applied if stricter, and refused otherwise. -/
  | limitTighten (addr : BitVec 24) (w : W32)
  /-- R352: The power controller's PWR_GNT sets OP_GRANTED. -/
  | powerGrant (l : Lane) (op : Fin 256)
  /-- R352: No grant within 1 ms re-presents the request and raises PSTEP_NO_GRANT. -/
  | pstepNoGrant (l : Lane)
  /-- R353: A write of CTL.PLAN_ARM checks and starts the stagger plan, or is refused. -/
  | planArm
  /-- R355: A write of CTL.PLAN_STOP ends the plan after the broadcasts in flight. -/
  | planStop
  /-- R354: At T minus PLAN_LEAD_US, a VALID plan entry launches a POWER_STEP broadcast. -/
  | planLaunch
  /-- R370: A write of a command ring's DOORBELL sets TAIL and PENDING and wakes the fetcher. -/
  | doorbell (ring : Fin 64) (w : W32)
  /-- R367: A descriptor is read from the ring and starts when its WAIT, FENCE and in-flight conditions allow. -/
  | descriptorFetch (ring : Fin 64) (res : HostRead) (wait : HostRead)
  /-- R366: A NOP descriptor completes with no effect. -/
  | nop (ring : Fin 64) (index : Nat)
  /-- R366: A SIGNAL descriptor writes VALUE to ADDR once every earlier descriptor has completed. -/
  | signal (ring : Fin 64) (index : Nat)
  /-- R374: A REG_READ descriptor reads die registers through a local REG_REQ or a remote register frame. -/
  | regRead (ring : Fin 64) (index : Nat)
  /-- R374: A REG_WRITE descriptor writes die registers, with inline or host data. -/
  | regWrite (ring : Fin 64) (index : Nat) (res : HostRead)
  /-- R275: A BULK_LOAD descriptor sends host data to a die memory as BULK cells. -/
  | bulkLoad (ring : Fin 64) (index : Nat) (res : HostRead)
  /-- R376: A RECORDER_READ descriptor copies the selected recorder records into host memory. -/
  | recorderRead (ring : Fin 64) (index : Nat)
  /-- R383: A ROUTE_WRITE descriptor writes GDID routing entries. -/
  | routeWrite (ring : Fin 64) (index : Nat) (res : HostRead)
  /-- R383: A ROUTE_READ descriptor reads GDID routing entries into host memory. -/
  | routeRead (ring : Fin 64) (index : Nat)
  /-- R386: A FENCE_SET descriptor writes a fence entry and sends FENCE JOIN and ISOLATE to the dies it changes. -/
  | fenceSet (ring : Fin 64) (index : Nat) (res : HostRead)
  /-- R366: A BCAST descriptor at the root starts an all-or-nothing JOB_START or POWER_STEP broadcast. -/
  | bcast (ring : Fin 64) (index : Nat)
  /-- R366: An FW_MSG descriptor passes a message to firmware and returns its response. -/
  | fwMsg (ring : Fin 64) (index : Nat) (res : HostRead)
  /-- R367: A started descriptor's effect finishes and its completion is written to the completion ring or held. -/
  | descriptorComplete (ring : Fin 64) (index : Nat) (fault : Bool)
  /-- R368: Every WAIT_POLL_NS, or after a doorbell, the WAIT value is read and a met condition starts the descriptor.
  -/
  | waitPoll (ring : Fin 64) (res : HostRead)
  /-- R368: WAIT_TIMEOUT_MS passes and the blocked descriptor completes WAIT_TIMEOUT. -/
  | waitExpired (ring : Fin 64)
  /-- R372: A write of ring CTL.RESUME writes held completions in order, or refetches the head descriptor. -/
  | ringResume (ring : Fin 64) (good : Option Nat) (w : W32)
  /-- R375: REG_TIMEOUT_US passes without a response: the request is reissued, or completes TIMEOUT. -/
  | regTimeout (req : ReqName)
  /-- R374: A node receives a remote register frame and issues its REG_REQ on the die's lane. -/
  | regFrame (h : EthHdr) (gdid : Nat) (id : Nat) (op : Nat) (nwords : Nat) (addr : Nat) (data : List W32)
  /-- R374: The originating aggregator receives the REG_RESP payload in a tree frame. -/
  | regFrameResponse (h : EthHdr) (id : Nat) (status : Nat) (nwords : Nat) (data : List W32)
  /-- R384: An aggregator receives a forwarded record and delivers it to its record ring when its route is not LOCAL.
  -/
  | forwardedRecord (h : EthHdr) (gdid : Nat) (kind : Nat) (bs : List Byte)
  /-- R378: An Ethernet port loses its link. -/
  | ethLinkDown (port : Fin 2) (cause : Nat) (corrected : Nat) (bad : Nat)
  /-- R389: A write of ETH CTL.RETRAIN restarts the port's link. -/
  | ethRetrain (port : Fin 2)
  /-- R379: Every 2,000 ms a PRP supervision frame is sent. -/
  | prpSupervision
  /-- R379: A port that receives no frame for 6,000 ms raises PRP_LAN_DOWN. -/
  | prpLanDown (port : Fin 2)
  /-- R380: A PTP message is received and yields a measurement for the aggregator clock, or is forwarded as a
  transparent clock. -/
  | ptpMessage (port : Fin 2) (m : PtpMsg)
  /-- R381: Three sync intervals without a measurement form the aggregator's MISS3. -/
  | ptpSyncMissed
  /-- R381: PTP_HOLDOVER_NS in HOLDOVER sets the aggregator UNSYNCED. -/
  | ptpHoldTimeout
  /-- R381: A write of PTP_CTL.ARM_RESTEP arms the aggregator clock to follow a new grandmaster. -/
  | ptpArmRestep
  /-- R381: A write of PTP_CTL.DISARM clears the armed aggregator re-step. -/
  | ptpDisarm
  /-- R401: A write of IDENT CTL.READ_ALL reads identity targets 0 to 8 in order. -/
  | readAll (l : Lane)
  /-- R401: A write of IDENT CTL.READ_ONE reads one identity target. -/
  | readOne (l : Lane) (target : Fin 9)
  /-- R402: A target's read ends: an accepted record replaces the store, and a failure sets STALE. -/
  | identTargetDone (l : Lane) (res : IdentRead)
  /-- R397: TOPOLOGY compares a lane's PEER_ID with its route and writes the GDID to a provisional die, or raises
  ID_CONFLICT. -/
  | topologyCheck (l : Lane)
  /-- R404: The aggregator's board-record read completes and applies its Levee and AGG outcomes. -/
  | boardRecordDone (res : IdentRead) (signed : Bool)
  /-- R407: SIDEBAND reads a tray part's identity record, and raises PART_ID on failure. -/
  | partRecordRead (item : Nat) (res : IdentRead)
  /-- R440: Every aggregator supply has stayed in range for 100 µs and the straps are sampled. -/
  | suppliesValid (role : Bool) (idMode : Bool) (hostEn : Bool)
  /-- R408: 2 ms after supplies are valid, the aggregator's hardware pages become ACTIVE and the board read starts. -/
  | hardwareReady
  /-- R439: A supply leaves its operating range but stays within the state-kept range: SUPPLY_RANGE and FAULT_N. -/
  | supplyRange (supply : Fin 8) (v : Nat)
  /-- R439: A supply at or below its loss threshold loses all aggregator state. -/
  | aggPowerLoss
  /-- R446: RESET_N falls: the endpoint stops, lanes are held in reset, and LPDDR5X enters self-refresh. -/
  | resetNAssert
  /-- R446: RESET_N rises: registers reset, straps are resampled and firmware reboots, with hardware ready 2 ms later.
  -/
  | resetNRise (role : Bool) (idMode : Bool) (hostEn : Bool)
  /-- R443: REF156 has no edge within 50 ns: the counter goes to backup, the lanes lose lock, and FAULT_N is asserted.
  -/
  | ref156Loss
  /-- R443: REF156 returns and the lanes retrain. -/
  | ref156Return
  /-- R453: CHIP_TEMP exceeds TEMP_WARN and THERM_WARN is raised. -/
  | thermWarn (t : W16)
  /-- R453: At 125 °C every VRM_EN drops, every SHUTDOWN_N asserts, and FAULT_N asserts until power removal. -/
  | thermalTrip
  /-- R451: A write of DRAM CTL.RETRAIN retrains every channel. -/
  | dramRetrain
  /-- R450: LPDDR5X training completes, or it fails and the DRAM page faults with TRAIN_FAIL. -/
  | dramTrainingDone (fail : Option (Nat × Nat × Nat))
  /-- R101: On each partner clock edge a Rill tap presents an increment of 0 to 15 per counter, which the pre-counter
  adds to the 48-bit counter and its residue, saturating at the limit. -/
  | tapInc (l : Lane) (tap : Fin 2048) (incs : List (Fin 16))
  /-- R105: At each instant start + j × HP_SAMPLE_NS within a window, Spring samples every health-point input into the
  window's running reduction. -/
  | hpSample (l : Lane) (vals : List (Nat × W16 × Bool))
  /-- R271: A Tributary cell whose CRC fails is discarded, counted in CRC_ERR_COUNT and does not advance its queue's
  expected CSEQ. -/
  | crcErr (lane : LaneEnd) (corrected : Nat) (bad : Nat)
  /-- R378: A management Ethernet port regains its link and FEC lock, sets STAT.LINK_UP and carries relay, tree, PTP
  and PRP traffic again. -/
  | ethLinkUp (port : Fin 2)
  /-- R362: The PCI Express link trains and Data Link Layer Link Active rises, setting ESTUARY STAT.LINK_UP, SPEED and
  WIDTH. -/
  | pcieLinkUp (speed : Nat) (width : Nat) (flit : Bool) (ats : Bool)
  /-- R439: A supply that had left its operating range returns within it, so SUPPLY_RANGE stops standing and FAULT_N
  is released if no other cause holds it. -/
  | supplyWithinRange (supply : Fin 8) (v : Nat)
  /-- R449: The LPDDR5X MR4 temperature reading changes the refresh rate in DRAM STAT.DERATE and raises TEMP_DERATE.
  -/
  | tempDerate (chan : Nat) (derate : Fin 3) (mr4 : Nat)
  /-- R360: A host write through BAR2 is stored in LPDDR5X when it targets the staging area, message rings or mailbox
  area, and is otherwise discarded and counted. -/
  | bar2Write (addr : Nat) (bs : List Byte)
  deriving DecidableEq, Repr

end Sys2Proof
end

