-- ==== Sys2Proof/Decode.lean ====
section
/-! DEFINITION. The block has no instruction words: its commands arrive as operations on its ports, and the opcode table
gives none of its rows any bits. -/

namespace Sys2Proof

/-- The command a word spells by the table's bits: none, since no row has bits. -/
def decodeTableWord (_nbits _w : Nat) : Option Instr := none

end Sys2Proof
end

