-- ==== Sys2Proof/Machine/DieState.lean ====
section
/-! DEFINITION. The state of one tray: sixteen die units and their aggregator, as plain data. Every register lives in
the register file of its part (`Part.regs`); what no register shows has a typed field here. -/

namespace Sys2Proof.Machine

/-! ### Register pages (chapter 02) -/

/-- Page states of R41. -/
inductive PState where
  | off | enabling | active | draining | faulted
  deriving DecidableEq, Repr

/-- ERR_FIRST (R46). -/
structure ErrFirst where
  bit : Nat := 0
  unit : Nat := 0
  valid : Bool := false
  deriving DecidableEq, Repr

/-- The shadow of one access source of a page (R40, R58): the offset of the last low word it read, and the high word
and fraction word latched there. -/
structure Shadow where
  low : Option Nat := none
  hi : W32 := 0
  frac : W32 := 0
  deriving DecidableEq, Repr

/-- One late item of a page, as a LATE record names it (R91, R93). `lateness` is in 1/16 ns once delivered. -/
structure LateItem where
  unit : Nat
  op : Nat
  stage : Nat
  start : Nat
  frac : Nat := 0
  deadline : Nat
  lateness : Option Nat := none
  injected : Bool := false
  deriving DecidableEq, Repr

/-- The common header of one page (R37), its shadows, its sequence number (R51), its late tracking (R91), and the
lower half an indirect port holds (R49). `lateFirsts` are the first misses of windows whose late results are still to be
delivered, oldest first. -/
structure PageHdr where
  state : PState := .off
  enablePending : Bool := false
  lock : Bool := false
  errStat : W32 := 0
  errMask : W32 := 0
  armed : Byte := 0
  first : ErrFirst := {}
  deadline : W32 := 0
  lateCount : W32 := 0
  eventCount : W32 := 0
  seq : Byte := 0
  drainSince : Nat := 0
  shadowNear : Shadow := {}
  shadowRemote : Shadow := {}
  lateSeen : Bool := false
  lateFirsts : List LateItem := []
  lateMore : Nat := 0
  lateLast : Option LateItem := none
  heldLower : Option (Nat × W32) := none
  deriving DecidableEq, Repr

/-- Page classes of R31. -/
inductive PageClass where
  | global | headwater | selftime | spring | rill | ident | riffle | eddy | gauge | gaugeEng | oxbow | bore
  | boreBar | meander | meanderCore | sluice | trib
  | aggGlobal | confluence | millrace | levee | estuary | ring | eth | tribPort | dram
  deriving DecidableEq, Repr

/-- A health record of R51, before encoding. `detail` holds at most 20 bytes. -/
structure HealthRec where
  gdid : Nat
  provisional : Bool := false
  unsynced : Bool := false
  late : Bool := false
  injected : Bool := false
  aggSource : Bool := false
  unit : Nat := 0
  cls : Nat
  op : Nat := 0
  level : Nat := 0
  verdict : Nat := 0
  code : Nat
  opCode : Nat := 0
  temp : W16 := 0x8000
  volt : W16 := 0
  load : Nat := 0xFF
  seq : Nat := 0
  window : Nat := 0
  time : Nat := 0
  step : Nat := 0xFFFFFFFF
  detail : List Byte := []
  partition : Nat := 0xFFFF
  deriving DecidableEq, Repr

/-- Where a health record goes: strict queue S1 or S2 of a die, or the aggregator's own path (R456). -/
inductive RecPath where
  | s1 | s2 | agg
  deriving DecidableEq, Repr

/-- A stage item in flight (R86): it keeps the deadline in force at its input-ready instant, which is `start` in ns and
`frac` in 2⁻³² ns. -/
structure StageItem where
  page : Nat
  stage : Nat
  unit : Nat
  op : Nat
  start : Nat
  frac : Nat := 0
  deadline : Nat
  missed : Bool := false
  injected : Bool := false
  deriving DecidableEq, Repr

/-- What a record adds to the fields its part supplies (R51, R53). `mem` is a memory that ERR_FIRST names while the record
names no unit of the class (log entry 171). `op`, `level`, `load` and `cond` (TEMPERATURE and VOLTAGE) are given where the
record concerns an engine (R182, R418, R419). -/
structure RepArgs where
  unit : Nat := 0
  mem : Option Nat := none
  opCode : Nat := 0
  op : Option Nat := none
  level : Option Nat := none
  verdict : Nat := 0
  load : Option Nat := none
  cond : Option (W16 × W16) := none
  detail : List Byte := []
  late : Bool := false
  injected : Bool := false
  time : Option Nat := none
  step : Option Nat := none
  deriving DecidableEq, Repr

/-! ### Time discipline (chapters 03 and 16) -/

/-- Discipline states of R61. -/
inductive DState where
  | free | locking | locked | holdover
  deriving DecidableEq, Repr

/-- One discipline machine: Headwater of a die (R61–R65), or the aggregator's PTP clock (R381). `trims` holds the
trims of the last 16 measurements accepted since the last step, newest first (R62); times are ns. -/
structure Disc where
  state : DState := .free
  unsynced : Bool := true
  stepped : Bool := false
  armed : Bool := false
  refLoss : Bool := false
  lockRun : Nat := 0
  trim : Int := 0
  integ : Int := 0
  trims : List Int := []
  holdSince : Nat := 0
  missRun : Nat := 0
  countFrom : Nat := 0
  deriving DecidableEq, Repr

/-- A health-point input (R418): the value and HP_VALID. -/
structure HpIn where
  val : W16 := 0
  valid : Bool := false
  deriving DecidableEq, Repr

/-! ### Bore events (chapter 10) -/

/-! ### Sluice and Tributary (chapter 12) -/

/-- The kinds of upstream record, in QMAP order (R280, R287). -/
inductive RecKind where
  | step | window | snapshot | response | trace | raw
  deriving DecidableEq, Repr

/-- An upstream record: its kind, its encoded bytes, and the number its producer knows it by (window index, step
number, part number or frame index). -/
structure Rec where
  kind : RecKind
  bytes : List Byte
  tag : Nat := 0
  deriving DecidableEq, Repr

/-- What a Tributary cell carries (R271, table Cell types). `part` is a 2,048-byte portion of a record or of its
block, from byte `off`. -/
inductive Body where
  | health (r : HealthRec)
  | part (r : Rec) (off : Nat)
  | timeSync (exch t1 : Nat)
  | timeDelay (exch t3 : Nat)
  | timeResp (exch t4 : Nat)
  | note (e : BoreEvent) (time status : Nat)
  | regReq (id op nwords addr : Nat) (data : List W32)
  | regResp (id status nwords : Nat) (data : List W32)
  | bulk (id target : Nat) (last : Bool) (offset : Nat) (data : List Byte)
  | bulkAck (id status offset : Nat)
  | dispute (tag unit : Nat)
  | selftestReq (engine tag : Nat)
  deriving DecidableEq, Repr

/-- A cell waiting in a queue (R271, R277): its header fields, its payload, and the time it was enqueued, in 2⁻³² ns. -/
structure Cell where
  typ : Nat
  len : Nat
  first : Bool := true
  last : Bool := true
  compressed : Bool := false
  late : Bool := false
  body : Body
  enq : Nat := 0
  deriving DecidableEq, Repr

/-- The cell crossing the serializer (R276, R286): its queue, and the instant its last byte crosses, in 2⁻³² ns. -/
structure Sending where
  queue : Nat
  cell : Cell
  until_ : Nat
  deriving DecidableEq, Repr

/-- What a tree frame carries (R227, R311, R374, R379, R384). `bcast` names the child it is meant for where it carries an
adopted one (the frame has no field for it). -/
inductive TreeBody where
  | event (group : Nat) (e : BoreEvent)
  | bcast (b : Bcast) (child : Option Nat)
  | hopAck (id op : Nat)
  | ready (id op pooled refused unreached node : Nat)
  | sketch (off total : Nat) (bytes : List Byte)
  | expelReq (gdid partition entity score : Nat)
  | expelResp (gdid result cause : Nat)
  | record (gdid kind : Nat) (bytes : List Byte)
  | regReq (gdid id op nwords addr : Nat) (data : List W32)
  | regResp (id status nwords : Nat) (data : List W32)
  | supervision
  deriving DecidableEq, Repr

/-- What a command presents to the partners of its part: cells and frames sent, exchanges raised, interrupts
signalled. `Part.out` lists what the last command presented, in order (the model's own field). -/
inductive Out where
  | cell (lane : Option Nat) (c : Cell) (resid : Nat) (frame : List Byte)
  | train (lane : Option Nat) (payload : List Byte)
  | probe (engine tag fmt : Nat) (stolen : Bool) (a b : List Nat)
  | tapReq (engine : Nat)
  | gate (code step : Nat)
  | retract (epoch job : Nat)
  | regAck (data : W32)
  | boreFrame (pair : Nat) (f : PairFrame)
  | barrierWake (core : Nat)
  | coreWait (core : Nat)
  | traceSerial (lanes : List (List Byte))
  | traceParallel (transfers : List (Nat × Bool))
  | stall (core : Nat) (on : Bool)
  | haltReq (core : Nat)
  | drainReq (core : Nat)
  | resumeReq (core : Nat)
  | compWr (core index : Nat) (addr0 addr1 ctl : Nat)
  | powerReq (op step : Nat)
  | eth (port : Nat) (dest : Nat) (priority prp : Option Nat) (body : TreeBody) (payload : List Byte)
  | ptp (port : Nat) (correction : Int)
  | msix (vector : Nat)
  | hostWrite (addr : Nat) (bytes : List Byte)
  | sideband (bus : Nat) (bytes : List Byte)
  | flash (primary backup : Nat)
  deriving DecidableEq, Repr

/-- The common part of the die unit and the aggregator: registers, page headers, time and its discipline, the health-point inputs (die), stage items, the health
records emitted and not yet queued, whether an access of the command at hand has set ACCESS_ERR (R274), the pages whose
ERR_FIRST was captured in the cycle at hand (R46; the model's own field), and the counter of free values drawn (the model's
own field). `slot` is the
strap SLOT_ID on a die; `isAgg` tells which page map and register tables apply. -/
structure Part where
  isAgg : Bool
  slot : Nat := 0
  regs : SMap W32 := []
  hdrs : SMap PageHdr := []
  time : Time := 0
  disc : Disc := {}
  hpIn : SMap HpIn := []
  stages : List StageItem := []
  emitted : List (RecPath × HealthRec) := []
  out : List Out := []
  accessed : Bool := false
  captured : List Nat := []
  fresh : Nat := 0
  deriving DecidableEq, Repr

/-- An exchange in progress at a die (R59, R273), all times in 2⁻¹⁶ ns: t1 and c_down as TIME_SYNC gave them, t2 its
arrival, and t3 and c_up once TIME_DELAY has gone out. -/
structure Exchange where
  seq : Nat
  t1 : Nat
  cDown : Nat
  t2 : Nat
  up : Option (Nat × Nat) := none
  deriving DecidableEq, Repr

/-! ### Sluice and Tributary ends -/

/-- A compression job in flight (R266): the record, the queue it reserves in, the reserved space in cell bytes and
the time it was accepted. -/
structure CompJob where
  rc : Rec
  queue : Nat
  space : Nat
  reserved : Nat
  start : Nat
  deriving DecidableEq, Repr

/-- An admission bucket of S1 or S2 (R278): records admissible now, and the time of the last refill, in µs. -/
structure Bucket where
  tokens : Nat
  at_ : Nat := 0
  deriving DecidableEq, Repr

/-- The state of one end of a Tributary lane that no register shows: queues 0–10 (S0–S2, W0–W7), the deficit
scheduler's position (R279), the last gate-cycle boundary (R282) and the instant a switch was armed (R284), the cell on the
lane, link training (R276), sequence numbers (R271), the times of the CRC errors
of the last 1 ms, the downstream register and bulk cells a die holds unperformed, in order (R274) and the records under reassembly at the aggregator (R272). -/
structure Port where
  queues : SMap (List Cell) := []
  deficits : SMap Nat := []
  rr : Nat := 0
  credited : Bool := false
  cycleAt : Option Nat := none
  gclAt : Nat := 0
  sending : Option Sending := none
  jobs : List CompJob := []
  s1 : Bucket := ⟨2048, 0⟩
  s2 : Bucket := ⟨1024, 0⟩
  lostSince : SMap Nat := []
  trainSent : Nat := 0
  trainGot : Option (Nat × Nat) := none
  trainSince : Nat := 0
  txSeq : SMap Nat := []
  rxSeq : SMap Nat := []
  crcTimes : List Nat := []
  waiting : List Cell := []
  partials : SMap (Option (List Byte × Nat × Bool)) := []
  deriving DecidableEq, Repr

/-! ### Spring (chapter 05) -/

/-- One Rill counter (R101, R102): the 48-bit sum, its SAT flag (R10), its mod-3 residue and the mark that a residue
mismatch invalidated it until cleared. -/
structure Counter where
  sum : Nat := 0
  sat : Bool := false
  residue : Nat := 0
  invalid : Bool := false
  deriving DecidableEq, Repr

/-- The running reduction of one health point over the open window (R105): valid samples so far, their sum (for a
mean), and the maximum, minimum or last value by kind. -/
structure HpRun where
  count : Nat := 0
  sum : Nat := 0
  best : W16 := 0
  deriving DecidableEq, Repr

/-- SPRING configuration that takes effect at a window boundary (R112). -/
structure SpringCfg where
  ctl : W32
  selGen : W32
  rawCount : W32
  hpSel : List W32
  deriving DecidableEq, Repr

/-- The open window (R68, R70): its index, START, the Headwater time from which it counts and the time forward steps
inside it took away (both in 2⁻¹⁶ ns), and whether a step shortened it. -/
structure OpenWindow where
  index : Nat := 0
  start : Nat := 0
  countFrom : Nat := 0
  short : Bool := false
  lost : Nat := 0
  deriving DecidableEq, Repr

/-- What decides whether a counter counted at a close (R104, R111): AON_ONLY with the set in force, the taps with
COUNT_EN 0, the RILL pages found ACTIVE and the taps tied absent. -/
structure CountCtx where
  aonOnly : Bool := false
  aon : SMap Nat := []
  countEn : SMap Bool := []
  rillActive : SMap Bool := []
  absent : SMap Bool := []
  deriving DecidableEq, Repr

/-- A model header of Eddy, decoded (R144). -/
structure ModelHdr where
  depth : Nat
  trees : Nat
  id : Nat
  prog : Nat
  nfeat : Nat
  flags : Nat
  base : Int
  treeBase : Nat
  alarmHi : Int
  alarmLo : Int
  alarmOn : Nat
  alarmOff : Nat
  engine : Nat
  deriving DecidableEq, Repr

/-- One window's data on its way through Spring, Riffle and Eddy (R110, R21): identity, the configuration in force,
the counters latched at its opening and its close, the health values, the step-marker account, the status, the Riffle bank that serves it
and whether its features are absent (R136, R137), whether Eddy's deadline stage runs for it, and the models that score it with
their SWAPPED marks (R153, R154). -/
structure WinJob where
  index : Nat
  start : Nat
  close : Nat
  len : Nat
  short : Bool := false
  unsynced : Bool := false
  provisional : Bool := false
  gdid : Nat := 0
  partition : Nat := 0xFFFF
  cfg : SpringCfg
  resumed : Bool := false
  opened : SMap Counter := []
  closed : SMap Counter := []
  ctx : CountCtx := {}
  health : SMap W16 := []
  steps : Nat := 0
  lastStep : Nat := 0xFFFFFFFF
  lastStepOff : Nat := 0xFFFFFFFF
  lateMask : Nat := 0
  injected : Bool := false
  heldAt : Nat := 0
  lostAt : Nat := 0
  record : Bool := true
  bank : Nat := 0
  absent : Bool := false
  progId : Nat := 0
  nfeat : Nat := 0
  features : Option (List Nat) := none
  eddyOk : Bool := true
  staged : Bool := false
  taken : Bool := false
  models : List (Option ModelHdr) := []
  swapped : List Bool := []
  deriving DecidableEq, Repr

/-- Spring state that no register shows: counters live and latched (R101, R110), the running health reductions
(R105), the configuration in force (R112), the always-on and raw tables (R104, R115), COUNT_EN in force by tap, the
open window, the ns of its last health sample (R105), the marker account with the offset of the open window's last marker,
the windows being closed, and the step and retention stores (R109, R117). -/
structure SpringState where
  counters : SMap Counter := []
  latched : SMap Counter := []
  hpRun : SMap HpRun := []
  cfg : SpringCfg
  aon0 : SMap Nat := []
  aon1 : SMap Nat := []
  rawSel : SMap Nat := []
  countEn : SMap Bool := []
  window : OpenWindow := {}
  hpAt : Option Nat := none
  steps : Nat := 0
  stepOff : Nat := 0xFFFFFFFF
  stepLate : Bool := false
  prevMarker : Option Nat := none
  seenMarker : Bool := false
  closing : List WinJob := []
  stepStore : List Rec := []
  retention : List Rec := []
  resumed : Bool := false
  deriving DecidableEq, Repr

/-! ### Riffle and Eddy (chapters 06 and 07) -/

/-- Riffle state that no register shows: the two banks, the input queue in window order (R136), the index an armed
swap waits for, the window that OLD_BUSY waits for (R134), and the window held at a fault (R138). -/
structure RiffleState where
  bankA : Mem := []
  bankB : Mem := []
  queue : List WinJob := []
  armed : Option Nat := none
  oldWindow : Option Nat := none
  held : Option WinJob := none
  deriving DecidableEq, Repr

/-- The latest delivered scores, as step records carry them (R108, R290). -/
structure LastScores where
  window : Nat := 0
  valid : Nat := 0
  alarm : Nat := 0
  residues : Nat := 0
  marks : Nat := 0
  scores : List Nat := [0x80000000, 0x80000000, 0x80000000, 0x80000000]
  deriving DecidableEq, Repr

/-- A former model of a slot while it is OLD_BUSY (R158): its header and the window it finishes. -/
structure OldModel where
  hdr : ModelHdr
  window : Nat
  deriving DecidableEq, Repr

/-- An armed group of Eddy loads and unloads (R160). -/
structure EddyGroup where
  index : Nat
  loads : Nat
  unloads : Nat
  deriving DecidableEq, Repr

/-- Eddy state that no register shows: the model memory (R141), the vector queue (R152), the armed group (R160), the
OLD_BUSY models (R158), for each slot the first window of its present model and whether the one before it was broken, the
slots whose new model has not yet met a window (R154), the latest delivered scores, and after a tracked window-length switch its NEXT_BASE with the deadline of the windows opened before it (R88). -/
structure EddyState where
  mem : Mem := []
  queue : List WinJob := []
  armed : Option EddyGroup := none
  old : SMap (Option OldModel) := []
  since : SMap Nat := []
  oldBroken : SMap Bool := []
  fresh : SMap Bool := []
  last : LastScores := {}
  oldDeadline : Option (Nat × Nat) := none
  deriving DecidableEq, Repr

/-! ### Headwater and the monitors (chapters 03 and 04) -/

/-- An event waiting in the trigger pool (R71), in arrival order. -/
structure PoolEntry where
  ev : BoreEvent
  order : Nat
  deriving DecidableEq, Repr

/-- Headwater state that no register shows: the exchange in progress, the trigger pool and its arrival count. -/
structure HwState where
  exch : Option Exchange := none
  pool : List PoolEntry := []
  arrivals : Nat := 0
  deriving DecidableEq, Repr

/-- Stage-period monitors (R94–R97): the partner periods in force (R84), baseline cells with VALID 0 under
accumulation (windows and sum of periods by cell), the baseline table as memory, and per monitor the consecutive windows
above and at or below the limit. -/
structure MonState where
  periods : List Nat := [500, 500, 500, 500, 500]
  base : Mem := []
  acc : SMap (Nat × Nat) := []
  overRun : SMap Nat := []
  underRun : SMap Nat := []
  deriving DecidableEq, Repr

/-! ### Gauge (chapter 08) -/

/-- Why a probe runs (R173, R192). -/
inductive Origin where
  | scheduled | background | selftest | replay | dispute
  deriving DecidableEq, Repr

/-- The part an engine has in a check (R185). -/
inductive Role where
  | main | peer | arbiter | confirm
  deriving DecidableEq, Repr

/-- The condition an engine's probe is tagged with at issue (R182); `point` is the operating point. -/
structure Cond where
  tbin : Nat := 0
  temp : W16 := 0x8000
  volt : W16 := 0
  load : Nat := 0xFF
  level : Nat := 0
  point : Nat := 0
  deriving DecidableEq, Repr

/-- One check under way (R173, R185): the probed engine `e`, the peer or confirmation engine `p` and the arbiter `a`
with their results and conditions; `random` is the class bit; `tap` the tap entry whose captured C answers for `e`;
`expect` the kept result a self-test's replay is compared with, and `src` the tap entry its operands come from. -/
structure Check where
  id : Nat
  origin : Origin
  random : Bool
  e : Nat
  fmt : Nat
  gdid : Nat
  seed : Nat
  seq : Option Nat := none
  tap : Option Nat := none
  expect : Option (List Nat) := none
  src : Option Nat := none
  half : Bool := false
  owner : Nat := 0
  p : Option Nat := none
  a : Option Nat := none
  re : Option (List Nat) := none
  rp : Option (List Nat) := none
  ra : Option (List Nat) := none
  conds : SMap Cond := []
  refWait : Bool := false
  deriving DecidableEq, Repr

/-- A probe that waits for credit and a slot (R176, R177). -/
structure Wait where
  check : Nat
  role : Role
  engine : Nat
  asked : Nat
  steal : Bool := false
  deriving DecidableEq, Repr

/-- A probe in flight under its tag (R174). -/
structure Probe where
  tag : Nat
  check : Nat
  role : Role
  engine : Nat
  issued : Nat
  deriving DecidableEq, Repr

/-- The failing pattern a self-test replays (R187): generator inputs or a tap entry, and the result the replays are compared
with, which takes a place of the result store (`kept`) unless it is the captured C. -/
structure Pattern where
  seq : Nat
  fmt : Nat
  random : Bool
  gdid : Nat
  seed : Nat
  expect : List Nat
  tap : Option Nat := none
  kept : Bool := true
  deriving DecidableEq, Repr

/-- A targeted self-test queued or running (R187–R189); `dispute` tells that a dispute probe asked for it (R212). -/
structure SelfTest where
  engine : Nat
  trigger : Nat
  start : Nat
  seq : Nat := 0
  pattern : Option Pattern := none
  another : Bool := false
  dispute : Bool := false
  exactHalf : Bool := true
  judged : Nat := 0
  unjudged : Nat := 0
  exactFail : Nat := 0
  replayFail : Nat := 0
  noResult : Bool := false
  deriving DecidableEq, Repr

/-- One engine's schedule and credit (R176, R179, R189): the time its interval counts from, the scheduled-probe count
and format position, how far its credit lies below the cap (`short` parts of a slot, of which `part` make one slot) and when
that was reckoned, and the trigger time of its last verdicted error. -/
structure EngState where
  since : Option Nat := none
  count : Nat := 0
  fmtPos : Nat := 0
  short : Nat := 0
  part : Nat := 1
  shortAt : Nat := 0
  lastErr : Option Nat := none
  deriving DecidableEq, Repr

/-- A dispute probe (R212): its tag and unit, whether it waits for GAUGE, the engines still to be judged and the
counts so far. -/
structure Dispute where
  tag : Nat
  unit : Nat
  waiting : Bool := true
  left : List Nat := []
  probed : Nat := 0
  passed : Nat := 0
  failed : Nat := 0
  firstFail : Nat := 0xFFFF
  deriving DecidableEq, Repr

/-- Gauge state that no register shows. `taps` names the matrix engine and format of each used tap entry, `tapReq` the
engines whose next production tile is awaited, `held` the exact-set results that wait for a reference self-test (R186);
`rate` is the second and the records counted in it (R192), `bgRate` likewise for background probes (R178). -/
structure GaugeState where
  engs : SMap EngState := []
  checks : List Check := []
  waits : List Wait := []
  probes : List Probe := []
  running : List SelfTest := []
  queue : List SelfTest := []
  nextId : Nat := 0
  hist : Mem := []
  tapMem : Mem := []
  taps : SMap (Option (Nat × Nat)) := []
  tapReq : List Nat := []
  held : List (Probe × List Nat) := []
  lastMatrix : Nat := 127
  lastVector : Nat := 639
  bgCount : Nat := 0
  bgRate : Nat × Nat := (0, 0)
  rate : Nat × Nat := (0, 0)
  dispute : Option Dispute := none
  deriving DecidableEq, Repr

/-! ### Oxbow (chapter 09) -/

/-- A suspect indication (R203): detection time, fault code and engine. -/
structure Suspect where
  time : Nat
  code : Nat
  engine : Nat
  deriving DecidableEq, Repr

/-- A response on the gate port (R198): of a slot, or REFUSED for a step that was not taken. -/
inductive GateResp where
  | slot (s : Nat)
  | refused (step : Nat)
  deriving DecidableEq, Repr

/-- Oxbow state that no register shows: the slots in use in arrival order, each slot's decision instant, for the slots
whose request met FLAG_NEXT the suspect that had set it, the slots whose request came while the page was DRAINING (R215), the
steps up to which suspects flag (R203) and FOLLOWS holds (R208), the responses to present in order, when the engine abandoned
the one presented (R198), the suspects that raised FLAG_UPTO with the step each flags up to, the one that set
FLAG_NEXT last and when the dispute in force was signalled (log entry 170), the release
history (R217) and how many of its entries hold a step, and whether an executed STOP holds requests (R230). -/
structure OxbowState where
  order : List Nat := []
  due : SMap Nat := []
  flagged : SMap (Option Suspect) := []
  meanwhile : SMap Bool := []
  suspectUpto : Nat := 0
  follow : Option Nat := none
  resp : List GateResp := []
  abandoned : Option Nat := none
  suspects : List (Nat × Suspect) := []
  nextCause : Option Suspect := none
  disputeAt : Nat := 0
  hist : Mem := []
  histUsed : Nat := 0
  stopHold : Bool := false
  deriving DecidableEq, Repr

/-! ### Bore (chapter 10) -/

/-- An event under vote (R220): the copies arrived, in order, whether it has acted, and when its first and second
copies came. -/
structure Vote where
  copies : List (Nat × BoreEvent) := []
  bad : List Nat := []
  acted : Option BoreEvent := none
  first : Nat := 0
  second : Nat := 0
  deriving DecidableEq, Repr

/-- A core waiting at a barrier context (R233): the core, and whether its clock is gated. -/
structure Waiter where
  core : Nat
  gated : Bool
  deriving DecidableEq, Repr

/-- The cut the die holds (R234–R237): its event, time, window and flags, and the parts still to send, encoded. -/
structure Cut where
  id : Nat
  parts : List Rec
  deriving DecidableEq, Repr

/-- Bore state that no register shows: the votes in progress, the copies counted as missing (R220), each copy's run of
disagreements (R221), which copies of Bore's own state an upset has made differ from the majority (R219), sequence numbers of
the pairs (R222), the waiters of each context and the context each core last arrived at (R233), and the cut store. -/
structure BoreState where
  votes : List Vote := []
  missing : List (Nat × BoreEvent) := []
  runs : SMap Nat := []
  upset : Nat := 0
  txSeq : SMap Nat := []
  rxSeq : SMap (Option Nat) := []
  lastCtx : SMap (Option Nat) := []
  waiters : SMap (List Waiter) := []
  cut : Option Cut := none
  deriving DecidableEq, Repr

/-! ### Meander (chapter 11) -/

/-- A byte of a core's FIFO (R249, R250): whether a packet header starts there, and when it entered. -/
structure FifoByte where
  byte : Byte
  starts : Bool
  since : Nat
  deriving DecidableEq, Repr

/-- One core's trace stream (R246–R252, R257, R258): the FIFO bytes; the branch outcomes held and when the youngest came;
bytes since the last SYNC began; the last TIME or TIMESTAMP; the last addresses of each kind; whether the stream has started
at its sinks; whether a partial frame is due; bytes lost and since when; when a stall and a halt began; whether SYNC reason
6 is due; and the comparator settings sent that the core has not acknowledged. -/
structure CoreTrace where
  fifo : List FifoByte := []
  held : List Bool := []
  heldAt : Nat := 0
  sinceSync : Nat := 0
  lastTime : Nat := 0
  lastInd : Nat := 0
  lastData : Option Nat := none
  started : Bool := false
  part : Bool := false
  lost : Nat := 0
  lostSince : Nat := 0
  stallSince : Nat := 0
  haltSince : Nat := 0
  resumed : Bool := false
  compOut : Nat := 0
  deriving DecidableEq, Repr

/-- Meander state that no register shows: the cores' streams, the round-robin position, the trace buffer by frame, the
post frames still to write and whether the buffer had wrapped at the trigger (R253, R255), the instant of the trigger taken
(R254), the records of an upload, and a cross-halt launch that waits: its core and comparator index (R260). -/
structure MeanderState where
  cores : SMap CoreTrace := []
  rr : Nat := 0
  buf : SMap (List Byte) := []
  postLeft : Nat := 0
  wrappedAtTrig : Bool := false
  trigAt : Option Time := none
  upload : List Rec := []
  cross : Option (Nat × Nat) := none
  deriving DecidableEq, Repr

/-! ### Power steps and identity (chapters 15 and 17) -/

/-- Identity reads (R399–R403): the nine target stores, target t at byte address 16,384 × t; the targets still to read;
and the partner-period registers the driver has written since power-up. -/
structure IdentState where
  stores : Mem := []
  left : List Nat := []
  periodSet : SMap Bool := []
  deriving DecidableEq, Repr

/-- What GLOBAL holds beside its registers: the GDID that waits for a boundary (R396), when the pending power step
executed and whether its step has passed already (R351), and when the request now open was last presented (R352). -/
structure GlobalState where
  gdidNext : Option Nat := none
  pstepAt : Nat := 0
  pstepSlip : Bool := false
  reqAt : Nat := 0
  deriving DecidableEq, Repr

/-- One die unit. `powered`: VQ_VDD is valid; `ready`: VQ_READY (R391, R414); `irq`: the interrupt outputs (R425). -/
structure Die where
  powered : Bool := true
  ready : Bool := false
  irq : BitVec 4 := 0
  part : Part
  port : Port := {}
  spring : SpringState
  hw : HwState := {}
  mon : MonState := {}
  ties : Ties := {}
  riffle : RiffleState := {}
  eddy : EddyState := {}
  gauge : GaugeState := {}
  oxbow : OxbowState := {}
  bore : BoreState := {}
  meander : MeanderState := {}
  ident : IdentState := {}
  glob : GlobalState := {}
  deriving DecidableEq, Repr

/-- SPRING configuration at reset, as its registers reset (R118). -/
def SpringCfg.reset : SpringCfg :=
  { ctl := 0x6B, selGen := 0, rawCount := 0
    hpSel := [0xFFFFFFFF, 0xFFFFFFFF, 0, 0, 0xFFFFFFFF, 0xFFFFFFFF, 0, 0, 0xFFFFFFFF, 0, 0, 0, 0, 0, 0xFFFFFFFF,
      0xFFFFFFFF] }

/-- A die unit whose VQ_VDD has just become valid (R54, R391), with its strap and its ties. -/
def Die.reset (slot : Nat) (ties : Ties) : Die :=
  { part := { isAgg := false, slot := slot }, spring := { cfg := .reset }, ties := ties }

end Sys2Proof.Machine
end

