-- ==== Sys2Proof/Machine/AggState.lean ====
section
/-! DEFINITION. The state of the aggregator that no register shows, by chapter: Confluence (13), Millrace (14), Levee (15),
Estuary (16), identity and the chip (17, 19). -/

namespace Sys2Proof.Machine

/-! ### Confluence -/

/-- One metric under merge (R293–R296): its CFG byte without ENC, the bin counts, TOTAL with its residue, and the list, best
first, as value and GDID. -/
structure Metric where
  cfg : Nat
  bins : SMap Nat := []
  total : Nat := 0
  res : Nat := 0
  top : List (Nat × Nat) := []
  deriving DecidableEq, Repr

/-- A sketch before encoding (R295, R296). -/
structure Sketch where
  job : Nat
  step : Nat
  partition : Nat
  unsynced : Bool := false
  late : Bool := false
  injected : Bool := false
  cut : Bool := false
  expected : Nat := 0
  reported : Nat := 0
  first : Nat := 0xFFFFFFFFFFFFFFFF
  last : Nat := 0
  lateRecords : Nat := 0
  missingNodes : Nat := 0
  metrics : List Metric := []
  deriving DecidableEq, Repr

/-- An open merge context (R292, R297): the sketch so far, the lanes or child nodes that have reported, and CLOSE. -/
structure MergeCtx where
  sk : Sketch
  got : List Nat := []
  close : Nat
  deriving DecidableEq, Repr

/-- A step whose context has closed (R292): when, and whether AFTER_CLOSE has been raised for it. -/
structure ClosedStep where
  job : Nat
  step : Nat
  time : Nat
  raised : Bool := false
  deriving DecidableEq, Repr

/-- A job the aggregator tracks (R297): the children with their expected dies, and the dies of its own tray. -/
structure Job where
  id : Nat
  partition : Nat
  children : List (Nat × Nat) := []
  own : Nat := 0
  deriving DecidableEq, Repr

/-- Samples of one rule source in the period (R302). -/
structure DriftAcc where
  n : Nat := 0
  last : Int := 0
  mx : Int := 0
  mn : Int := 0
  sum : Int := 0
  deriving DecidableEq, Repr

/-- The alarm machine of an entity (R304) and its latest score with the time it was evaluated. -/
structure EntityState where
  raised : Bool := false
  run : Nat := 0
  score : Option (Int × Nat) := none
  deriving DecidableEq, Repr

/-- Drift (R301–R304): entity table, rules and models as memories; the period's samples by source key; the entities; which
header block of a class is in force, which classes hold a validated staging side and which wait for a swap; whether scoring
runs, and the periods that wait behind it. -/
structure DriftState where
  entity : Mem := []
  rules : Mem := []
  model : Mem := []
  acc : SMap DriftAcc := []
  ents : SMap EntityState := []
  force : SMap Nat := []
  staged : SMap Bool := []
  armed : SMap Bool := []
  scoring : Bool := false
  late : Bool := false
  waiting : Nat := 0
  askedAt : SMap Nat := []
  deriving DecidableEq, Repr

/-- A child of a broadcast at one node (R312): the node, the alternate that carries it, its acknowledgements of the BCAST,
of CONFIRM and of ABORT, whether CONFIRM was sent to it, its READY sums, and whether it is treated as failed. -/
structure BcChild where
  node : Nat
  via : Option Nat := none
  acked : Bool := false
  asked : Bool := false
  confirmed : Bool := false
  ready : Option (Nat × Nat × Nat) := none
  failed : Bool := false
  deriving DecidableEq, Repr

/-- A broadcast at one node (R312–R314): the frame, the parent it came from, the children, the adopted children served for
other parents, the acknowledgements gathered from the dies with the lanes they were asked of, the totals, and how far it has
come. `desc` is the descriptor that started it at the root, `plan` a plan entry. -/
structure BcState where
  msg : Bcast
  parent : Option Nat := none
  children : List BcChild := []
  adopted : List (Nat × Nat) := []
  lanes : List Nat := []
  acks : List (Nat × Nat) := []
  gatherUntil : Option Nat := none
  own : Option (Nat × Nat × Nat) := none
  unreached : Nat := 0
  refusedHere : Nat := 0
  readySent : Bool := false
  confirm : Bool := false
  abort : Bool := false
  split : Bool := false
  expected : Nat := 0
  desc : Option (Nat × Nat) := none
  plan : Bool := false
  deriving DecidableEq, Repr

/-- A freeze of the recorder (R316): when it began, its cause and port, and whether the rings have stopped. -/
structure Freeze where
  since : Nat
  cause : Nat
  port : Nat
  frozen : Bool := false
  deriving DecidableEq, Repr

/-- A record in the flight recorder (R315): its entry header fields, its bytes as stored, and what it is selected by
(R376). -/
structure RecEntry where
  time : Nat
  port : Nat
  kind : Nat
  bytes : List Byte
  gdid : Nat
  window : Nat := 0
  deriving DecidableEq, Repr

/-- The segments of a child's sketch so far (R311): TOTAL, and each segment's offset with its bytes. -/
structure SketchParts where
  total : Nat := 0
  parts : List (Nat × List Byte) := []
  deriving DecidableEq, Repr

/-- Confluence state. `member` is the job a port's die belongs to, with the time it joined (R291); `told` the die reports of
an event that await the other path's, as path (0 note, 1 acknowledgement), lane, SEQ, SOURCE and status (R305); `refused` the
lanes whose child was refused at link-up (R15); `cellAt` and `boreAt` when each port last carried a cell, and each of its
Bore receive lanes a block; `sketchParts` the segments of child sketches by node (R311); `rings` the
recorder: window rings 0–15, event log 16, capture 17, oldest record first. -/
structure ConfState where
  jobs : List Job := []
  member : SMap (Option (Nat × Nat)) := []
  ctxs : List MergeCtx := []
  merged : List Sketch := []
  closed : List ClosedStep := []
  lastMerged : SMap (Option Nat) := []
  refused : SMap Bool := []
  cellAt : SMap Nat := []
  boreAt : SMap Nat := []
  sketchParts : SMap SketchParts := []
  bcasts : List BcState := []
  nextBcast : Nat := 0
  boreLive : SMap Nat := []
  differSince : SMap (Option Nat) := []
  told : List (Nat × Nat × Nat × Nat × Nat) := []
  drift : DriftState := {}
  budget : Mem := []
  topo : Mem := []
  strag : Mem := []
  stragAge : SMap Nat := []
  stragTold : SMap Bool := []
  stragSeq : Nat := 0
  shedSince : SMap Nat := []
  freeze : Option Freeze := none
  rings : SMap (List RecEntry) := []
  overwritten : Nat := 0
  deriving DecidableEq, Repr

/-! ### Millrace -/

/-- How far firmware has come with a message (R324). -/
inductive MsgPhase where
  | taken | started | done (status : Nat) (payload : List Byte)
  deriving DecidableEq, Repr

/-- A message firmware holds (R328–R331): its place, header fields and payload, the slots its response reserves, its phase
now and at its task's last checkpoint, and whether its ring has been reset since it was taken (R338). -/
structure Msg where
  src : MsgFrom
  opcode : Nat
  tag : Nat
  gen : Nat
  idem : Bool
  payload : List Byte
  room : Nat := 1
  phase : MsgPhase := .taken
  saved : Option MsgPhase := none
  orphan : Bool := false
  deriving DecidableEq, Repr

/-- An image's identity (R332). -/
structure ImageId where
  version : Nat
  svn : Nat
  schema : Nat
  schemaMin : Nat
  deriving DecidableEq, Repr

/-- Millrace state. `expiries` lists each core's watchdog expiries within 60 s; `checked` the time of each task's last
checkpoint; `events` those that wait for room; `verifying` tells FW_VERIFY (false) from ROM_LOAD (true); `staged` is the
verified image, `running` the one in force and `slot` the image slot it lies in, `old` the one kept for fallback; `phaseAt`
when the update phase began; `storm` counts expiries under a new image; `hbFrom` is when the host timer last started;
`absentFrom` begins the span a pending ABSENT_SUMMARY reports. -/
structure MillState where
  expiries : SMap (List Nat) := []
  checked : SMap Nat := []
  msgs : List Msg := []
  events : List (Nat × List Byte) := []
  verifying : Option Bool := none
  staged : Option ImageId := none
  running : Option ImageId := none
  slot : Nat := 0
  old : Option ImageId := none
  phaseAt : Nat := 0
  storm : Nat := 0
  hbFrom : Nat := 0
  absentFrom : Option Nat := none
  deriving DecidableEq, Repr

/-! ### Levee -/

/-- One channel's trackers (R343–R346): samples in a row beyond TH1–TH3 and SHUT, since when every sample has been on the
safe side of TH1–TH3, invalid and valid conversions in a row. -/
structure ChanState where
  beyond : SMap Nat := []
  shutRun : Nat := 0
  safe : SMap (Option Int) := []
  bad : Nat := 0
  good : Nat := 0
  deriving DecidableEq, Repr

/-- Levee state: channels; VRM-to-die map; when a die's VRMs are to drop; the dies whose VRMs are dropped; the plan table;
whether the plan is stopping; and the jobs whose plan broadcast ended in a cancel (R355). -/
structure LeveeState where
  chans : SMap ChanState := []
  vrmMap : SMap Nat := []
  offAt : SMap (Option Nat) := []
  dropped : Nat := 0
  plan : Mem := []
  stopping : Bool := false
  cancelled : List Nat := []
  deriving DecidableEq, Repr

/-! ### Estuary -/

/-- How a started descriptor stands: its effect is still to begin, runs, or has finished with STATUS, RESULT0, RESULT1. -/
inductive DescPhase where
  | fetched | running | finished (status r0 r1 : Nat)
  deriving DecidableEq, Repr

/-- A descriptor in flight (R365, R367), with the results gathered so far: cells outstanding and the first refusing
STATUS of a bulk load, the bytes sent and written, how often it was reissued, and whether its ring has been reset since
(R338), so that neither its completion nor its host addresses are used. -/
structure Desc where
  index : Nat
  bytes : List Byte
  phase : DescPhase := .fetched
  left : Nat := 0
  refused : Nat := 0
  sent : Nat := 0
  written : Nat := 0
  tries : Nat := 0
  orphan : Bool := false
  deriving DecidableEq, Repr

/-- A completion produced (R369). -/
structure Cpl where
  tag : Nat
  status : Nat
  index : Nat
  r0 : Nat
  r1 : Nat
  time : Nat
  irq : Bool := false
  deriving DecidableEq, Repr

/-- A descriptor fetched and held back (R367): its index and bytes, whether its WAIT still stands and since when, and the
STATUS it ends with where it will have no effect. -/
structure Blocked where
  index : Nat
  bytes : List Byte
  waiting : Bool := false
  since : Nat := 0
  status : Option Nat := none
  deriving DecidableEq, Repr

/-- A ring pair (R364–R373): descriptors in flight; the one held back; completions held in in-flight entries; when the
completion vector last fired, and whether it is held off (R388). -/
structure RingState where
  flight : List Desc := []
  blocked : Option Blocked := none
  held : List Cpl := []
  vecAt : Option Nat := none
  vecDue : Bool := false
  deriving DecidableEq, Repr

/-- Who asked for a register request (R374, R397): a descriptor, another aggregator with its own number, or the TOPOLOGY task. -/
inductive ReqOwner where
  | desc (ring index : Nat)
  | node (id req : Nat)
  | topology (gdid : Nat)
  deriving DecidableEq, Repr

/-- A register request outstanding (R375). For a remote die `lane` is absent and `gdid` names the die. -/
structure RegOut where
  lane : Option Nat
  gdid : Nat
  id : Nat
  owner : ReqOwner
  op : Nat
  nwords : Nat
  addr : Nat
  data : List W32 := []
  idem : Bool := false
  tries : Nat := 0
  since : Nat
  deriving DecidableEq, Repr

/-- Estuary state. `ovf` holds the overflow slots in use as ring and completion, oldest first; `load` the descriptor of each
outstanding bulk load by lane and LOAD_ID; `route` and `fence` are the tables; `msix` the MSI-X table
at BAR4, 16 bytes a vector, and `pba` the pending vectors (R360, R361);
`vec0`, `vec1` the level conditions last seen; `egress` the frames of the command at hand by egress priority (R378), 8 standing
for the untagged IEEE 1588 messages; `prpSeen` the frames met within FORGET_MS. -/
structure EstState where
  rings : SMap RingState := []
  ovf : List (Nat × Cpl) := []
  reqs : List RegOut := []
  reqSeq : SMap Nat := []
  loads : List (Nat × Nat × Nat × Nat) := []
  loadSeq : SMap Nat := []
  route : Mem := []
  fence : Mem := []
  msix : Mem := []
  pba : SMap Bool := []
  vec0 : Bool := false
  vec1 : Bool := false
  recDropSince : SMap Nat := []
  prpSeen : List (Nat × Nat × Nat) := []
  prpSeq : Nat := 0
  relaySeq : Nat := 0
  egress : List (Nat × Out) := []
  lastRx : SMap Nat := []
  ptpFrom : Nat := 0
  deriving DecidableEq, Repr

/-! ### The chip -/

/-- Where the aggregator stands (R439, R440, R446): without power, with supplies valid, hardware-ready, or held in reset. -/
inductive AggPhase where
  | off | valid | ready | held
  deriving DecidableEq, Repr

/-- What the chip holds beside its registers: supplies out of range, the thermal trip, whether a board record read runs, the
tray parts the record lists (KIND, BUS, ADDR, DIE) with the parts whose record has been accepted, LPDDR5X of the firmware and
mailbox region (R327, R360) by byte address, and lanes whose last topology check did not end in agreement (R397).
`readyFrom` is when supplies became valid or RESET_N rose, absent while RESET_N is low (R408, R446); `subsys` the subsystem
IDs of the endpoint, vendor below (R359, R404), zero until a board record gives them (log entry 210). -/
structure ChipState where
  outOfRange : SMap Bool := []
  tripped : Bool := false
  reading : Bool := false
  parts : List (Nat × Nat × Nat × Nat) := []
  accepted : SMap Bool := []
  dram : Mem := []
  recheck : SMap Bool := []
  readyFrom : Option Nat := some 0
  subsys : Nat := 0
  deriving DecidableEq, Repr

/-- The tray's aggregator. `boreSeq` numbers its own events, `boreTx` the frames of each pair position (R222); `exch` the
time exchanges (R59); `cutDue` the timed cuts whose cell counters are still to be latched, as instant, lane and snapshot
identifier (R286); `faultN` is the FAULT_N output (R453). -/
structure Agg where
  phase : AggPhase := .valid
  faultN : Bool := false
  part : Part := { isAgg := true }
  ports : SMap Port := []
  exch : Nat := 0
  boreSeq : Nat := 0
  boreTx : SMap Nat := []
  boreRx : SMap (Option Nat) := []
  boreGaps : SMap Nat := []
  cutDue : List (Nat × Nat × Nat) := []
  conf : ConfState := {}
  mill : MillState := {}
  lev : LeveeState := {}
  est : EstState := {}
  chip : ChipState := {}
  deriving DecidableEq, Repr

end Sys2Proof.Machine
end

