-- ==== Sys2Proof/Config.lean ====
section
/-! DEFINITION. The constants of the configuration and the free values: what the manual leaves open is an opaque
constant with no body, applied to a plain counter of State. No proof can see what it is. -/

namespace Sys2Proof.Config

/-- A free 32-bit value: the `n`-th one drawn (log entry 5). -/
opaque free32 : Nat → W32

/-- A free choice among two (log entry 5). -/
opaque freeBool : Nat → Bool

end Sys2Proof.Config
end

