-- ==== Sys2Proof/Machine/RegTable.lean ====
section
/-! DEFINITION. The register tables of the manual as data: for each page class the words it assigns, each field's
bits, access code (R6), static mark (R38) and range, and the reset value. Words of 64-bit registers are listed as a
low and a high word (R40); an indirect port (R49) as its four words. Offsets are from the page's start, or from the
slot's start for RILL, GAUGE_ENG and BORE_BAR (R35). -/

namespace Sys2Proof.Machine

/-- Access codes of R6. -/
inductive Acc where
  | ro | roh | rw | w1c | wo | rwl
  deriving DecidableEq, Repr

/-- How a word takes part in a wide field (R40) or an indirect port (R49: IND_ADDR, IND_DATA, IND_CTL, IND_STAT). -/
inductive Wide where
  | one | low | high | ind0 | ind1 | ind2 | ind3
  deriving DecidableEq, Repr

/-- One field of a register word: low bit, width, access, static mark, and the range a write must lie in. -/
structure FieldSpec where
  lo : Nat
  w : Nat
  acc : Acc
  static : Bool
  min : Nat
  max : Nat
  deriving DecidableEq, Repr

/-- One register word, or an array of `count` words `stride` bytes apart; `reset` lists the reset values by index
(one value when all are the same). -/
structure RegSpec where
  off : Nat
  count : Nat
  stride : Nat
  reset : List Nat
  wide : Wide
  fields : List FieldSpec
  deriving DecidableEq, Repr

/-- Words of the headwater page class, part 1 of 1 (03_headwater_time.md R78). -/
def headwaterRegs : List RegSpec := [
  ⟨0x040, 1, 0x0, [0], .low, [⟨0, 32, .roh, false, 0, 4294967295⟩]⟩,
  ⟨0x044, 1, 0x0, [0], .high, [⟨0, 32, .roh, false, 0, 4294967295⟩]⟩,
  ⟨0x048, 1, 0x0, [0], .one, [⟨0, 32, .roh, false, 0, 4294967295⟩]⟩,
  ⟨0x04C, 1, 0x0, [1], .one, [⟨0, 1, .rw, false, 0, 1⟩, ⟨1, 1, .wo, false, 0, 1⟩, ⟨2, 1, .wo, false, 0, 1⟩]⟩,
  ⟨0x050, 1, 0x0, [8], .one, [⟨0, 3, .roh, false, 0, 7⟩, ⟨3, 1, .roh, false, 0, 1⟩, ⟨4, 1, .roh, false, 0, 1⟩, ⟨5, 1, .roh, false, 0, 1⟩, ⟨6, 1, .roh, false, 0, 1⟩, ⟨8, 4, .roh, false, 0, 15⟩]⟩,
  ⟨0x054, 1, 0x0, [3], .one, [⟨0, 4, .rw, true, 1, 15⟩]⟩,
  ⟨0x058, 1, 0x0, [0x33333333], .one, [⟨0, 32, .rw, true, 0, 4294967295⟩]⟩,
  ⟨0x05C, 1, 0x0, [0], .one, [⟨0, 32, .roh, false, 0, 4294967295⟩]⟩,
  ⟨0x060, 1, 0x0, [0], .one, [⟨0, 32, .rw, false, 0, 4294967295⟩]⟩,
  ⟨0x064, 1, 0x0, [0x3e8], .one, [⟨0, 32, .rw, false, 16, 1000000⟩]⟩,
  ⟨0x068, 1, 0x0, [8], .one, [⟨0, 32, .rw, false, 1, 1000⟩]⟩,
  ⟨0x06C, 1, 0x0, [0x989680], .one, [⟨0, 32, .rw, false, 1000000, 1000000000⟩]⟩,
  ⟨0x070, 1, 0x0, [0x602], .one, [⟨0, 4, .rw, false, 0, 15⟩, ⟨8, 4, .rw, false, 0, 15⟩]⟩,
  ⟨0x074, 1, 0x0, [0], .one, [⟨0, 16, .rw, false, 0, 65535⟩]⟩,
  ⟨0x078, 1, 0x0, [0], .one, [⟨0, 32, .roh, false, 0, 4294967295⟩]⟩,
  ⟨0x07C, 1, 0x0, [0], .one, [⟨0, 32, .roh, false, 0, 4294967295⟩]⟩,
  ⟨0x080, 1, 0x0, [0], .one, [⟨0, 32, .roh, false, 0, 4294967295⟩]⟩,
  ⟨0x084, 1, 0x0, [0], .one, [⟨0, 32, .roh, false, 0, 4294967295⟩]⟩,
  ⟨0x088, 1, 0x0, [0], .low, [⟨0, 32, .roh, false, 0, 4294967295⟩]⟩,
  ⟨0x08C, 1, 0x0, [0], .high, [⟨0, 32, .roh, false, 0, 4294967295⟩]⟩,
  ⟨0x090, 1, 0x0, [0], .low, [⟨0, 32, .roh, false, 0, 4294967295⟩]⟩,
  ⟨0x094, 1, 0x0, [0], .high, [⟨0, 32, .roh, false, 0, 4294967295⟩]⟩,
  ⟨0x098, 1, 0x0, [0x4e20], .one, [⟨0, 32, .roh, false, 0, 4294967295⟩]⟩,
  ⟨0x09C, 1, 0x0, [0x4e20], .one, [⟨0, 32, .rw, false, 0, 4294967295⟩]⟩,
  ⟨0x0A0, 1, 0x0, [0], .low, [⟨0, 32, .roh, false, 0, 4294967295⟩]⟩,
  ⟨0x0A4, 1, 0x0, [0], .high, [⟨0, 32, .roh, false, 0, 4294967295⟩]⟩,
  ⟨0x0A8, 1, 0x0, [0], .low, [⟨0, 32, .rw, false, 0, 4294967295⟩]⟩,
  ⟨0x0AC, 1, 0x0, [0], .high, [⟨0, 32, .rw, false, 0, 4294967295⟩]⟩,
  ⟨0x0B0, 1, 0x0, [0], .low, [⟨0, 32, .roh, false, 0, 4294967295⟩]⟩,
  ⟨0x0B4, 1, 0x0, [0], .high, [⟨0, 32, .roh, false, 0, 4294967295⟩]⟩,
  ⟨0x0B8, 1, 0x0, [0], .one, [⟨0, 1, .wo, false, 0, 1⟩, ⟨1, 1, .roh, false, 0, 1⟩]⟩,
  ⟨0x0BC, 1, 0x0, [0], .low, [⟨0, 32, .roh, false, 0, 4294967295⟩]⟩,
  ⟨0x0C0, 1, 0x0, [0], .high, [⟨0, 32, .roh, false, 0, 4294967295⟩]⟩,
  ⟨0x0C4, 1, 0x0, [0], .one, [⟨0, 6, .roh, false, 0, 63⟩, ⟨8, 6, .roh, false, 0, 63⟩]⟩,
  ⟨0x0C8, 1, 0x0, [0], .one, [⟨0, 32, .roh, false, 0, 4294967295⟩]⟩,
  ⟨0x0CC, 1, 0x0, [0], .one, [⟨0, 32, .roh, false, 0, 4294967295⟩]⟩,
  ⟨0x0D0, 1, 0x0, [0xea60], .one, [⟨0, 32, .rw, false, 1, 600000⟩]⟩]

/-- Words of the selftime page class, part 1 of 1 (04_self_timed_operation.md R99). -/
def selftimeRegs : List RegSpec := [
  ⟨0x040, 1, 0x0, [0xb], .one, [⟨0, 1, .rw, false, 0, 1⟩, ⟨1, 1, .rw, false, 0, 1⟩, ⟨2, 1, .wo, false, 0, 1⟩, ⟨3, 1, .rw, false, 0, 1⟩]⟩,
  ⟨0x044, 1, 0x0, [0xcd], .one, [⟨0, 16, .rw, false, 16, 4096⟩]⟩,
  ⟨0x048, 1, 0x0, [0x10], .one, [⟨0, 8, .rw, false, 1, 255⟩]⟩,
  ⟨0x04C, 1, 0x0, [0x40], .one, [⟨0, 8, .rw, false, 4, 255⟩]⟩,
  ⟨0x050, 1, 0x0, [0xf8000000], .one, [⟨0, 32, .roh, false, 0, 4294967295⟩]⟩,
  ⟨0x054, 1, 0x0, [0], .one, [⟨0, 32, .roh, false, 0, 4294967295⟩]⟩,
  ⟨0x058, 1, 0x0, [0], .one, [⟨0, 32, .roh, false, 0, 4294967295⟩]⟩,
  ⟨0x05C, 1, 0x0, [0], .one, []⟩,
  ⟨0x060, 5, 0x4, [0x1f4], .one, [⟨0, 16, .rw, false, 312, 4000⟩]⟩,
  ⟨0x074, 1, 0x0, [0], .one, []⟩,
  ⟨0x078, 1, 0x0, [0], .one, []⟩,
  ⟨0x07C, 1, 0x0, [0], .one, []⟩,
  ⟨0x080, 32, 0x4, [0x80000000], .one, [⟨0, 16, .roh, false, 0, 65535⟩, ⟨16, 16, .roh, false, 0, 65535⟩]⟩,
  ⟨0x100, 1, 0x0, [0], .ind0, [⟨2, 30, .rw, false, 0, 1073741823⟩]⟩,
  ⟨0x104, 1, 0x0, [0], .ind1, []⟩,
  ⟨0x108, 1, 0x0, [1], .ind2, [⟨0, 1, .rw, false, 0, 1⟩, ⟨8, 8, .rw, false, 0, 255⟩]⟩,
  ⟨0x10C, 1, 0x0, [0], .ind3, [⟨0, 4, .roh, false, 0, 15⟩]⟩]

/-- Words of the spring page class, part 1 of 1 (05_spring_intake.md R118). -/
def springRegs : List RegSpec := [
  ⟨0x040, 1, 0x0, [0x6b], .one, [⟨0, 1, .rw, false, 0, 1⟩, ⟨1, 1, .rw, false, 0, 1⟩, ⟨2, 1, .rw, false, 0, 1⟩, ⟨3, 1, .rw, false, 0, 1⟩, ⟨4, 1, .rw, false, 0, 1⟩, ⟨5, 1, .rw, false, 0, 1⟩, ⟨6, 1, .rw, false, 0, 1⟩, ⟨7, 1, .rw, false, 0, 1⟩, ⟨8, 2, .rw, false, 0, 3⟩]⟩,
  ⟨0x044, 1, 0x0, [0x1f40], .one, [⟨0, 32, .rw, false, 1000, 100000⟩]⟩,
  ⟨0x048, 1, 0x0, [0x3e8], .one, [⟨0, 32, .rw, true, 250, 100000⟩]⟩,
  ⟨0x04C, 1, 0x0, [0], .one, [⟨0, 16, .rw, false, 0, 65535⟩]⟩,
  ⟨0x050, 1, 0x0, [0], .one, [⟨0, 13, .rw, false, 0, 4096⟩]⟩,
  ⟨0x054, 1, 0x0, [0xffffffff], .one, [⟨0, 32, .roh, false, 0, 4294967295⟩]⟩,
  ⟨0x058, 1, 0x0, [0], .low, [⟨0, 32, .roh, false, 0, 4294967295⟩]⟩,
  ⟨0x05C, 1, 0x0, [0], .high, [⟨0, 32, .roh, false, 0, 4294967295⟩]⟩,
  ⟨0x060, 1, 0x0, [0], .one, [⟨0, 32, .roh, false, 0, 4294967295⟩]⟩,
  ⟨0x064, 1, 0x0, [0], .one, [⟨0, 9, .roh, false, 0, 511⟩, ⟨16, 9, .roh, false, 0, 511⟩]⟩,
  ⟨0x068, 1, 0x0, [0], .one, [⟨0, 32, .roh, false, 0, 4294967295⟩]⟩,
  ⟨0x06C, 1, 0x0, [0], .one, [⟨0, 11, .roh, false, 0, 2047⟩]⟩,
  ⟨0x070, 1, 0x0, [0], .one, [⟨0, 32, .roh, false, 0, 4294967295⟩]⟩,
  ⟨0x074, 1, 0x0, [0], .one, [⟨0, 32, .roh, false, 0, 4294967295⟩]⟩,
  ⟨0x078, 1, 0x0, [0], .one, [⟨0, 32, .roh, false, 0, 4294967295⟩]⟩,
  ⟨0x07C, 1, 0x0, [0], .one, []⟩,
  ⟨0x080, 16, 0x4, [0xffffffff, 0xffffffff, 0, 0, 0xffffffff, 0xffffffff, 0, 0, 0xffffffff, 0, 0, 0, 0, 0, 0xffffffff, 0xffffffff], .one, [⟨0, 32, .rw, false, 0, 4294967295⟩]⟩,
  ⟨0x0C0, 1, 0x0, [0], .ind0, [⟨2, 30, .rw, false, 0, 1073741823⟩]⟩,
  ⟨0x0C4, 1, 0x0, [0], .ind1, []⟩,
  ⟨0x0C8, 1, 0x0, [1], .ind2, [⟨0, 1, .rw, false, 0, 1⟩, ⟨8, 8, .rw, false, 0, 255⟩]⟩,
  ⟨0x0CC, 1, 0x0, [0], .ind3, [⟨0, 4, .roh, false, 0, 15⟩]⟩]

/-- Words of the rill page class, part 1 of 1 (05_spring_intake.md R121). -/
def rillRegs : List RegSpec := [
  ⟨0x000, 1, 0x0, [4], .one, [⟨0, 1, .wo, false, 0, 1⟩, ⟨1, 1, .roh, false, 0, 1⟩, ⟨2, 1, .rw, false, 0, 1⟩, ⟨3, 1, .roh, false, 0, 1⟩]⟩,
  ⟨0x004, 1, 0x0, [0], .one, [⟨0, 16, .roh, false, 0, 65535⟩]⟩,
  ⟨0x008, 1, 0x0, [0], .one, [⟨0, 16, .roh, false, 0, 65535⟩]⟩,
  ⟨0x00C, 1, 0x0, [0], .one, []⟩,
  ⟨0x010, 16, 0x8, [0], .low, [⟨0, 32, .roh, false, 0, 4294967295⟩]⟩,
  ⟨0x014, 16, 0x8, [0], .high, [⟨0, 16, .roh, false, 0, 65535⟩]⟩,
  ⟨0x090, 1, 0x0, [0], .one, []⟩,
  ⟨0x094, 1, 0x0, [0], .one, []⟩,
  ⟨0x098, 1, 0x0, [0], .one, []⟩,
  ⟨0x09C, 1, 0x0, [0], .one, []⟩,
  ⟨0x0A0, 1, 0x0, [0], .one, []⟩,
  ⟨0x0A4, 1, 0x0, [0], .one, []⟩,
  ⟨0x0A8, 1, 0x0, [0], .one, []⟩,
  ⟨0x0AC, 1, 0x0, [0], .one, []⟩,
  ⟨0x0B0, 1, 0x0, [0], .one, []⟩,
  ⟨0x0B4, 1, 0x0, [0], .one, []⟩,
  ⟨0x0B8, 1, 0x0, [0], .one, []⟩,
  ⟨0x0BC, 1, 0x0, [0], .one, []⟩]

/-- Words of the riffle page class, part 1 of 1 (06_riffle_features.md R139). -/
def riffleRegs : List RegSpec := [
  ⟨0x040, 1, 0x0, [0], .one, [⟨0, 1, .wo, false, 0, 1⟩, ⟨1, 1, .wo, false, 0, 1⟩]⟩,
  ⟨0x044, 1, 0x0, [0], .one, [⟨0, 1, .roh, false, 0, 1⟩, ⟨1, 1, .roh, false, 0, 1⟩, ⟨2, 1, .roh, false, 0, 1⟩, ⟨3, 1, .roh, false, 0, 1⟩, ⟨4, 1, .roh, false, 0, 1⟩, ⟨5, 1, .roh, false, 0, 1⟩, ⟨8, 8, .roh, false, 0, 255⟩]⟩,
  ⟨0x048, 1, 0x0, [0], .low, [⟨0, 32, .rw, false, 0, 4294967295⟩]⟩,
  ⟨0x04C, 1, 0x0, [0], .high, [⟨0, 32, .rw, false, 0, 4294967295⟩]⟩,
  ⟨0x050, 1, 0x0, [0], .low, [⟨0, 32, .roh, false, 0, 4294967295⟩]⟩,
  ⟨0x054, 1, 0x0, [0], .high, [⟨0, 32, .roh, false, 0, 4294967295⟩]⟩,
  ⟨0x058, 1, 0x0, [0], .one, [⟨0, 32, .roh, false, 0, 4294967295⟩]⟩,
  ⟨0x05C, 1, 0x0, [0], .one, [⟨0, 32, .roh, false, 0, 4294967295⟩]⟩,
  ⟨0x060, 1, 0x0, [0], .one, [⟨0, 9, .roh, false, 0, 511⟩, ⟨16, 13, .roh, false, 0, 8191⟩]⟩,
  ⟨0x064, 1, 0x0, [0], .one, [⟨0, 16, .roh, false, 0, 65535⟩]⟩,
  ⟨0x068, 1, 0x0, [0], .one, [⟨0, 16, .roh, false, 0, 65535⟩]⟩,
  ⟨0x06C, 1, 0x0, [0], .one, [⟨0, 32, .roh, false, 0, 4294967295⟩]⟩,
  ⟨0x070, 7, 0x4, [0], .one, [⟨0, 32, .roh, false, 0, 4294967295⟩]⟩,
  ⟨0x08C, 1, 0x0, [0], .one, [⟨0, 32, .roh, false, 0, 4294967295⟩]⟩,
  ⟨0x090, 1, 0x0, [0], .one, []⟩,
  ⟨0x094, 1, 0x0, [0], .one, []⟩,
  ⟨0x098, 1, 0x0, [0], .one, []⟩,
  ⟨0x09C, 1, 0x0, [0], .one, []⟩,
  ⟨0x0A0, 1, 0x0, [0], .ind0, [⟨2, 30, .rw, false, 0, 1073741823⟩]⟩,
  ⟨0x0A4, 1, 0x0, [0], .ind1, []⟩,
  ⟨0x0A8, 1, 0x0, [1], .ind2, [⟨0, 1, .rw, false, 0, 1⟩, ⟨8, 8, .rw, false, 0, 255⟩]⟩,
  ⟨0x0AC, 1, 0x0, [0], .ind3, [⟨0, 4, .roh, false, 0, 15⟩]⟩]

/-- Words of the eddy page class, part 1 of 1 (07_eddy_trees.md R166). -/
def eddyRegs : List RegSpec := [
  ⟨0x040, 1, 0x0, [0], .one, [⟨0, 1, .wo, false, 0, 1⟩, ⟨1, 1, .wo, false, 0, 1⟩, ⟨2, 2, .wo, false, 0, 3⟩, ⟨4, 4, .wo, false, 0, 15⟩, ⟨8, 4, .wo, false, 0, 15⟩]⟩,
  ⟨0x044, 1, 0x0, [0], .one, [⟨0, 4, .roh, false, 0, 15⟩, ⟨4, 4, .roh, false, 0, 15⟩, ⟨8, 4, .roh, false, 0, 15⟩, ⟨12, 4, .roh, false, 0, 15⟩, ⟨16, 1, .roh, false, 0, 1⟩, ⟨17, 1, .roh, false, 0, 1⟩, ⟨18, 2, .roh, false, 0, 3⟩, ⟨24, 8, .roh, false, 0, 255⟩]⟩,
  ⟨0x048, 1, 0x0, [0], .low, [⟨0, 32, .rw, false, 0, 4294967295⟩]⟩,
  ⟨0x04C, 1, 0x0, [0], .high, [⟨0, 32, .rw, false, 0, 4294967295⟩]⟩,
  ⟨0x050, 1, 0x0, [0], .low, [⟨0, 32, .roh, false, 0, 4294967295⟩]⟩,
  ⟨0x054, 1, 0x0, [0], .high, [⟨0, 32, .roh, false, 0, 4294967295⟩]⟩,
  ⟨0x058, 1, 0x0, [0], .one, [⟨0, 24, .roh, false, 0, 16777215⟩]⟩,
  ⟨0x05C, 1, 0x0, [0], .one, [⟨0, 24, .roh, false, 0, 16777215⟩]⟩,
  ⟨0x060, 1, 0x0, [0], .one, [⟨0, 16, .roh, false, 0, 65535⟩]⟩,
  ⟨0x064, 1, 0x0, [0], .one, [⟨0, 16, .roh, false, 0, 65535⟩]⟩,
  ⟨0x068, 1, 0x0, [0], .one, [⟨0, 32, .roh, false, 0, 4294967295⟩]⟩,
  ⟨0x06C, 4, 0x4, [0], .one, [⟨0, 32, .roh, false, 0, 4294967295⟩]⟩,
  ⟨0x07C, 1, 0x0, [0], .one, []⟩,
  ⟨0x080, 4, 0x20, [0], .one, [⟨0, 1, .roh, false, 0, 1⟩, ⟨1, 1, .roh, false, 0, 1⟩, ⟨2, 1, .roh, false, 0, 1⟩, ⟨3, 1, .roh, false, 0, 1⟩, ⟨4, 3, .roh, false, 0, 7⟩, ⟨7, 1, .roh, false, 0, 1⟩, ⟨8, 8, .roh, false, 0, 255⟩]⟩,
  ⟨0x084, 4, 0x20, [0], .one, [⟨0, 32, .roh, false, 0, 4294967295⟩]⟩,
  ⟨0x088, 4, 0x20, [0], .one, [⟨0, 32, .roh, false, 0, 4294967295⟩]⟩,
  ⟨0x08C, 4, 0x20, [0], .one, [⟨0, 4, .roh, false, 0, 15⟩, ⟨16, 15, .roh, false, 0, 32767⟩]⟩,
  ⟨0x090, 4, 0x20, [0x80000000], .one, [⟨0, 32, .roh, false, 0, 4294967295⟩]⟩,
  ⟨0x094, 4, 0x20, [0], .one, [⟨0, 8, .roh, false, 0, 255⟩, ⟨8, 3, .roh, false, 0, 7⟩, ⟨13, 3, .roh, false, 0, 7⟩]⟩,
  ⟨0x098, 4, 0x20, [0], .low, [⟨0, 32, .roh, false, 0, 4294967295⟩]⟩,
  ⟨0x09C, 4, 0x20, [0], .high, [⟨0, 32, .roh, false, 0, 4294967295⟩]⟩,
  ⟨0x100, 1, 0x0, [0], .ind0, [⟨2, 30, .rw, false, 0, 1073741823⟩]⟩,
  ⟨0x104, 1, 0x0, [0], .ind1, []⟩,
  ⟨0x108, 1, 0x0, [1], .ind2, [⟨0, 1, .rw, false, 0, 1⟩, ⟨8, 8, .rw, false, 0, 255⟩]⟩,
  ⟨0x10C, 1, 0x0, [0], .ind3, [⟨0, 4, .roh, false, 0, 15⟩]⟩]

/-- Words of the gauge page class, part 1 of 1 (08_gauge_probing.md R194). -/
def gaugeRegs : List RegSpec := [
  ⟨0x040, 1, 0x0, [0xb], .one, [⟨0, 1, .rw, false, 0, 1⟩, ⟨1, 1, .rw, false, 0, 1⟩, ⟨2, 1, .rw, false, 0, 1⟩, ⟨3, 1, .rw, false, 0, 1⟩, ⟨4, 1, .wo, false, 0, 1⟩, ⟨5, 1, .wo, false, 0, 1⟩]⟩,
  ⟨0x044, 1, 0x0, [0], .one, [⟨0, 1, .roh, false, 0, 1⟩, ⟨1, 1, .roh, false, 0, 1⟩, ⟨2, 1, .roh, false, 0, 1⟩, ⟨3, 2, .roh, false, 0, 3⟩, ⟨8, 4, .roh, false, 0, 15⟩, ⟨16, 7, .roh, false, 0, 127⟩]⟩,
  ⟨0x048, 1, 0x0, [0xc8], .one, [⟨0, 13, .rw, false, 0, 5000⟩]⟩,
  ⟨0x04C, 1, 0x0, [0x3e80001], .one, [⟨0, 2, .rw, false, 0, 2⟩, ⟨16, 16, .rw, false, 10, 60000⟩]⟩,
  ⟨0x050, 4, 0x4, [0xea60, 0x1770, 0x258, 0x3c], .one, [⟨0, 32, .rw, false, 10, 3600000⟩]⟩,
  ⟨0x060, 1, 0x0, [0x3e8], .one, [⟨0, 16, .rw, false, 16, 65535⟩]⟩,
  ⟨0x064, 1, 0x0, [0x258], .one, [⟨0, 32, .rw, false, 1, 86400⟩]⟩,
  ⟨0x068, 1, 0x0, [0x410], .one, [⟨0, 8, .rw, false, 1, 255⟩, ⟨8, 4, .rw, false, 1, 8⟩]⟩,
  ⟨0x06C, 1, 0x0, [0x186a0], .one, [⟨0, 32, .rw, false, 0, 1000000⟩]⟩,
  ⟨0x070, 1, 0x0, [0x1f4], .one, [⟨0, 32, .rw, false, 10, 1000⟩]⟩,
  ⟨0x074, 1, 0x0, [0], .low, [⟨0, 32, .rw, true, 0, 4294967295⟩]⟩,
  ⟨0x078, 1, 0x0, [0], .high, [⟨0, 32, .rw, true, 0, 4294967295⟩]⟩,
  ⟨0x07C, 1, 0x0, [0], .low, [⟨0, 32, .roh, false, 0, 4294967295⟩]⟩,
  ⟨0x080, 1, 0x0, [0], .high, [⟨0, 16, .roh, false, 0, 65535⟩]⟩,
  ⟨0x084, 1, 0x0, [0x1c1f], .one, [⟨0, 5, .rw, true, 0, 31⟩, ⟨8, 5, .rw, true, 0, 31⟩]⟩,
  ⟨0x088, 1, 0x0, [0x400008], .one, [⟨0, 16, .rw, true, 1, 1000⟩, ⟨16, 16, .rw, true, 1, 1000⟩]⟩,
  ⟨0x08C, 1, 0x0, [0], .one, [⟨0, 10, .wo, false, 0, 1023⟩]⟩,
  ⟨0x090, 1, 0x0, [0], .one, [⟨0, 32, .rw, false, 0, 4294967295⟩]⟩,
  ⟨0x094, 1, 0x0, [0], .low, [⟨0, 32, .rw, false, 0, 4294967295⟩]⟩,
  ⟨0x098, 1, 0x0, [0], .high, [⟨0, 16, .rw, false, 0, 65535⟩]⟩,
  ⟨0x09C, 1, 0x0, [0], .one, [⟨0, 10, .rw, false, 0, 639⟩, ⟨10, 3, .rw, false, 0, 4⟩, ⟨13, 1, .rw, false, 0, 1⟩]⟩,
  ⟨0x0A0, 1, 0x0, [0], .one, [⟨0, 32, .roh, false, 0, 4294967295⟩]⟩,
  ⟨0x0A4, 1, 0x0, [0], .one, [⟨0, 32, .roh, false, 0, 4294967295⟩]⟩,
  ⟨0x0A8, 1, 0x0, [0], .one, [⟨0, 32, .roh, false, 0, 4294967295⟩]⟩,
  ⟨0x0AC, 1, 0x0, [0], .one, [⟨0, 32, .roh, false, 0, 4294967295⟩]⟩,
  ⟨0x0B0, 1, 0x0, [0], .one, [⟨0, 32, .roh, false, 0, 4294967295⟩]⟩,
  ⟨0x0B4, 1, 0x0, [0], .one, [⟨0, 32, .roh, false, 0, 4294967295⟩]⟩,
  ⟨0x0B8, 1, 0x0, [0], .one, [⟨0, 32, .roh, false, 0, 4294967295⟩]⟩,
  ⟨0x0BC, 1, 0x0, [0], .one, [⟨0, 32, .roh, false, 0, 4294967295⟩]⟩,
  ⟨0x0C0, 1, 0x0, [0], .ind0, [⟨2, 30, .rw, false, 0, 1073741823⟩]⟩,
  ⟨0x0C4, 1, 0x0, [0], .ind1, []⟩,
  ⟨0x0C8, 1, 0x0, [1], .ind2, [⟨0, 1, .rw, false, 0, 1⟩, ⟨8, 8, .rw, false, 0, 255⟩]⟩,
  ⟨0x0CC, 1, 0x0, [0], .ind3, [⟨0, 4, .roh, false, 0, 15⟩]⟩]

/-- Words of the gaugeEng page class, part 1 of 1 (08_gauge_probing.md R196). -/
def gaugeEngRegs : List RegSpec := [
  ⟨0x000, 1, 0x0, [3], .one, [⟨0, 1, .rw, false, 0, 1⟩, ⟨1, 1, .rw, false, 0, 1⟩, ⟨2, 1, .rw, false, 0, 1⟩, ⟨4, 2, .wo, false, 0, 3⟩, ⟨6, 1, .wo, false, 0, 1⟩, ⟨7, 1, .wo, false, 0, 1⟩]⟩,
  ⟨0x004, 1, 0x0, [0], .one, [⟨0, 2, .roh, false, 0, 3⟩, ⟨2, 1, .roh, false, 0, 1⟩, ⟨3, 1, .roh, false, 0, 1⟩, ⟨4, 1, .roh, false, 0, 1⟩, ⟨5, 2, .roh, false, 0, 3⟩, ⟨7, 1, .roh, false, 0, 1⟩, ⟨16, 16, .roh, false, 0, 65535⟩]⟩,
  ⟨0x008, 1, 0x0, [0], .one, [⟨0, 32, .roh, false, 0, 4294967295⟩]⟩,
  ⟨0x00C, 1, 0x0, [0], .one, [⟨0, 32, .roh, false, 0, 4294967295⟩]⟩,
  ⟨0x010, 1, 0x0, [0], .one, [⟨0, 16, .roh, false, 0, 65535⟩, ⟨16, 16, .roh, false, 0, 65535⟩]⟩,
  ⟨0x014, 1, 0x0, [0], .low, [⟨0, 32, .roh, false, 0, 4294967295⟩]⟩,
  ⟨0x018, 1, 0x0, [0], .high, [⟨0, 32, .roh, false, 0, 4294967295⟩]⟩,
  ⟨0x01C, 1, 0x0, [0xff00], .one, [⟨0, 3, .roh, false, 0, 7⟩, ⟨8, 8, .roh, false, 0, 255⟩]⟩]

/-- Words of the oxbow page class, part 1 of 1 (09_oxbow_commit_gate.md R216). -/
def oxbowRegs : List RegSpec := [
  ⟨0x040, 1, 0x0, [0], .one, [⟨0, 1, .rw, true, 0, 1⟩, ⟨1, 1, .rw, true, 0, 1⟩, ⟨2, 1, .rw, false, 0, 1⟩, ⟨3, 1, .wo, false, 0, 1⟩, ⟨4, 1, .wo, false, 0, 1⟩, ⟨5, 1, .wo, false, 0, 1⟩]⟩,
  ⟨0x044, 1, 0x0, [0], .one, [⟨0, 3, .roh, false, 0, 7⟩, ⟨3, 1, .roh, false, 0, 1⟩, ⟨4, 1, .roh, false, 0, 1⟩, ⟨5, 1, .roh, false, 0, 1⟩, ⟨8, 3, .roh, false, 0, 7⟩, ⟨16, 16, .roh, false, 0, 65535⟩]⟩,
  ⟨0x048, 1, 0x0, [0], .one, [⟨0, 32, .rw, false, 0, 100000⟩]⟩,
  ⟨0x04C, 1, 0x0, [0xf4240], .one, [⟨0, 32, .rw, false, 0, 100000000⟩]⟩,
  ⟨0x050, 1, 0x0, [0x4e20], .one, [⟨0, 32, .rw, false, 1000, 1000000⟩]⟩,
  ⟨0x054, 1, 0x0, [0], .one, [⟨0, 32, .roh, false, 0, 4294967295⟩]⟩,
  ⟨0x058, 1, 0x0, [0xffffffff], .one, [⟨0, 32, .roh, false, 0, 4294967295⟩]⟩,
  ⟨0x05C, 1, 0x0, [0], .low, [⟨0, 32, .roh, false, 0, 4294967295⟩]⟩,
  ⟨0x060, 1, 0x0, [0], .high, [⟨0, 32, .roh, false, 0, 4294967295⟩]⟩,
  ⟨0x064, 1, 0x0, [0], .one, [⟨0, 16, .roh, false, 0, 65535⟩]⟩,
  ⟨0x068, 1, 0x0, [0], .one, [⟨0, 32, .rw, false, 0, 4294967295⟩]⟩,
  ⟨0x06C, 1, 0x0, [0], .one, [⟨0, 16, .wo, false, 0, 65535⟩, ⟨16, 2, .wo, false, 0, 3⟩]⟩,
  ⟨0x070, 1, 0x0, [0x3ff0000], .one, [⟨0, 16, .rw, false, 0, 65535⟩, ⟨16, 10, .rw, false, 0, 1023⟩]⟩,
  ⟨0x074, 1, 0x0, [0x3ff], .one, [⟨0, 10, .roh, false, 0, 1023⟩]⟩,
  ⟨0x078, 1, 0x0, [0], .one, [⟨0, 10, .roh, false, 0, 1023⟩, ⟨10, 10, .roh, false, 0, 1023⟩, ⟨31, 1, .roh, false, 0, 1⟩]⟩,
  ⟨0x07C, 1, 0x0, [0], .one, [⟨0, 32, .roh, false, 0, 4294967295⟩]⟩,
  ⟨0x080, 1, 0x0, [0], .one, [⟨0, 32, .roh, false, 0, 4294967295⟩]⟩,
  ⟨0x084, 1, 0x0, [0], .one, [⟨0, 32, .roh, false, 0, 4294967295⟩]⟩,
  ⟨0x088, 1, 0x0, [0], .one, [⟨0, 32, .roh, false, 0, 4294967295⟩]⟩,
  ⟨0x08C, 1, 0x0, [0], .one, [⟨0, 32, .roh, false, 0, 4294967295⟩]⟩,
  ⟨0x090, 1, 0x0, [0], .one, [⟨0, 32, .roh, false, 0, 4294967295⟩]⟩,
  ⟨0x094, 1, 0x0, [0], .one, [⟨0, 32, .roh, false, 0, 4294967295⟩]⟩,
  ⟨0x098, 1, 0x0, [0], .one, [⟨0, 32, .roh, false, 0, 4294967295⟩]⟩,
  ⟨0x09C, 1, 0x0, [0], .one, [⟨0, 6, .roh, false, 0, 63⟩]⟩,
  ⟨0x0A0, 4, 0x10, [0], .one, [⟨0, 32, .roh, false, 0, 4294967295⟩]⟩,
  ⟨0x0A4, 4, 0x10, [0], .one, [⟨0, 3, .roh, false, 0, 7⟩, ⟨3, 3, .roh, false, 0, 7⟩, ⟨6, 2, .roh, false, 0, 3⟩, ⟨16, 16, .roh, false, 0, 65535⟩]⟩,
  ⟨0x0A8, 4, 0x10, [0], .low, [⟨0, 32, .roh, false, 0, 4294967295⟩]⟩,
  ⟨0x0AC, 4, 0x10, [0], .high, [⟨0, 32, .roh, false, 0, 4294967295⟩]⟩,
  ⟨0x100, 1, 0x0, [0], .ind0, [⟨2, 30, .rw, false, 0, 1073741823⟩]⟩,
  ⟨0x104, 1, 0x0, [0], .ind1, []⟩,
  ⟨0x108, 1, 0x0, [1], .ind2, [⟨0, 1, .rw, false, 0, 1⟩, ⟨8, 8, .rw, false, 0, 255⟩]⟩,
  ⟨0x10C, 1, 0x0, [0], .ind3, [⟨0, 4, .roh, false, 0, 15⟩]⟩]

/-- Words of the bore page class, part 1 of 1 (10_bore_events_barriers.md R239). -/
def boreRegs : List RegSpec := [
  ⟨0x040, 1, 0x0, [0], .one, [⟨0, 1, .wo, false, 0, 1⟩, ⟨1, 1, .wo, false, 0, 1⟩, ⟨8, 8, .rw, false, 0, 255⟩, ⟨16, 1, .rw, false, 0, 1⟩]⟩,
  ⟨0x044, 1, 0x0, [7], .one, [⟨0, 3, .roh, false, 0, 7⟩, ⟨3, 1, .roh, false, 0, 1⟩, ⟨4, 1, .roh, false, 0, 1⟩, ⟨5, 1, .roh, false, 0, 1⟩, ⟨8, 2, .roh, false, 0, 3⟩]⟩,
  ⟨0x048, 1, 0x0, [0xffff], .one, [⟨0, 16, .roh, false, 0, 65535⟩]⟩,
  ⟨0x04C, 1, 0x0, [0xffffffff], .one, [⟨0, 32, .roh, false, 0, 4294967295⟩]⟩,
  ⟨0x050, 1, 0x0, [0], .one, [⟨0, 2, .roh, false, 0, 3⟩]⟩,
  ⟨0x054, 1, 0x0, [0], .one, [⟨0, 8, .rw, false, 0, 255⟩, ⟨8, 8, .rw, false, 0, 255⟩, ⟨16, 2, .rw, false, 0, 3⟩]⟩,
  ⟨0x058, 1, 0x0, [0xffffffff], .one, [⟨0, 32, .rw, false, 0, 4294967295⟩]⟩,
  ⟨0x05C, 1, 0x0, [0], .low, [⟨0, 32, .rw, false, 0, 4294967295⟩]⟩,
  ⟨0x060, 1, 0x0, [0], .high, [⟨0, 32, .rw, false, 0, 4294967295⟩]⟩,
  ⟨0x064, 1, 0x0, [0], .one, [⟨0, 32, .rw, false, 0, 4294967295⟩]⟩,
  ⟨0x068, 1, 0x0, [0], .one, [⟨0, 32, .rw, false, 0, 4294967295⟩]⟩,
  ⟨0x06C, 1, 0x0, [0], .one, [⟨0, 16, .roh, false, 0, 65535⟩]⟩,
  ⟨0x070, 3, 0x4, [0], .one, [⟨0, 32, .roh, false, 0, 4294967295⟩]⟩,
  ⟨0x07C, 1, 0x0, [0], .one, [⟨0, 32, .roh, false, 0, 4294967295⟩]⟩,
  ⟨0x080, 1, 0x0, [0], .one, [⟨0, 32, .roh, false, 0, 4294967295⟩]⟩,
  ⟨0x084, 1, 0x0, [0xffffffff], .one, [⟨0, 32, .roh, false, 0, 4294967295⟩]⟩,
  ⟨0x088, 1, 0x0, [0], .one, [⟨0, 32, .roh, false, 0, 4294967295⟩]⟩,
  ⟨0x08C, 1, 0x0, [0], .one, [⟨0, 32, .roh, false, 0, 4294967295⟩]⟩,
  ⟨0x090, 1, 0x0, [0], .one, [⟨0, 32, .roh, false, 0, 4294967295⟩]⟩,
  ⟨0x094, 1, 0x0, [0x10], .one, [⟨0, 8, .rw, false, 1, 255⟩]⟩,
  ⟨0x098, 1, 0x0, [0x28], .one, [⟨0, 16, .rw, false, 16, 1000⟩]⟩,
  ⟨0x09C, 1, 0x0, [0], .one, [⟨0, 16, .w1c, false, 0, 65535⟩]⟩,
  ⟨0x0A0, 1, 0x0, [0], .one, [⟨0, 16, .rw, false, 0, 65535⟩]⟩]

/-- Words of the boreBar page class, part 1 of 1 (10_bore_events_barriers.md R242). -/
def boreBarRegs : List RegSpec := [
  ⟨0x000, 1, 0x0, [0x50], .one, [⟨0, 1, .rw, false, 0, 1⟩, ⟨1, 2, .rw, true, 0, 2⟩, ⟨3, 1, .rw, true, 0, 1⟩, ⟨4, 2, .rw, true, 1, 2⟩, ⟨6, 1, .rw, true, 0, 1⟩, ⟨7, 1, .wo, false, 0, 1⟩]⟩,
  ⟨0x004, 1, 0x0, [1], .one, [⟨0, 16, .rw, true, 1, 65535⟩]⟩,
  ⟨0x008, 1, 0x0, [0], .one, [⟨0, 16, .roh, false, 0, 65535⟩, ⟨16, 1, .roh, false, 0, 1⟩, ⟨17, 2, .roh, false, 0, 3⟩, ⟨19, 1, .roh, false, 0, 1⟩, ⟨20, 1, .roh, false, 0, 1⟩]⟩,
  ⟨0x00C, 1, 0x0, [0xffffffff], .one, [⟨0, 32, .rw, true, 0, 4294967295⟩]⟩,
  ⟨0x010, 1, 0x0, [0], .one, [⟨0, 16, .wo, false, 0, 65535⟩, ⟨16, 1, .wo, false, 0, 1⟩]⟩,
  ⟨0x014, 1, 0x0, [0], .one, [⟨0, 32, .roh, false, 0, 4294967295⟩]⟩,
  ⟨0x018, 1, 0x0, [0], .one, [⟨0, 16, .roh, false, 0, 65535⟩, ⟨16, 16, .roh, false, 0, 65535⟩]⟩,
  ⟨0x01C, 1, 0x0, [0], .one, [⟨0, 32, .roh, false, 0, 4294967295⟩]⟩]

/-- Words of the meander page class, part 1 of 1 (11_meander_trace_debug.md R262). -/
def meanderRegs : List RegSpec := [
  ⟨0x040, 1, 0x0, [0x30], .one, [⟨0, 2, .rw, true, 0, 2⟩, ⟨2, 1, .rw, false, 0, 1⟩, ⟨3, 1, .rw, false, 0, 1⟩, ⟨4, 1, .rw, false, 0, 1⟩, ⟨5, 1, .rw, false, 0, 1⟩]⟩,
  ⟨0x044, 1, 0x0, [0], .one, [⟨0, 1, .wo, false, 0, 1⟩, ⟨1, 1, .wo, false, 0, 1⟩, ⟨2, 1, .wo, false, 0, 1⟩, ⟨3, 1, .wo, false, 0, 1⟩]⟩,
  ⟨0x048, 1, 0x0, [0], .one, [⟨0, 2, .roh, false, 0, 3⟩, ⟨2, 1, .roh, false, 0, 1⟩, ⟨3, 1, .roh, false, 0, 1⟩, ⟨8, 4, .roh, false, 0, 15⟩, ⟨12, 6, .roh, false, 0, 63⟩]⟩,
  ⟨0x04C, 1, 0x0, [0x32], .one, [⟨0, 7, .rw, false, 0, 100⟩]⟩,
  ⟨0x050, 1, 0x0, [0], .one, [⟨0, 18, .roh, false, 0, 262143⟩]⟩,
  ⟨0x054, 1, 0x0, [0], .one, [⟨0, 18, .roh, false, 0, 262143⟩]⟩,
  ⟨0x058, 1, 0x0, [0], .low, [⟨0, 32, .roh, false, 0, 4294967295⟩]⟩,
  ⟨0x05C, 1, 0x0, [0], .high, [⟨0, 32, .roh, false, 0, 4294967295⟩]⟩,
  ⟨0x060, 1, 0x0, [0], .one, [⟨0, 32, .roh, false, 0, 4294967295⟩]⟩,
  ⟨0x064, 1, 0x0, [0], .one, [⟨0, 32, .roh, false, 0, 4294967295⟩]⟩,
  ⟨0x068, 1, 0x0, [0x3e8], .one, [⟨0, 32, .rw, false, 100, 1000000⟩]⟩,
  ⟨0x06C, 1, 0x0, [0x800], .one, [⟨0, 12, .rw, false, 256, 2048⟩]⟩,
  ⟨0x070, 1, 0x0, [0x101], .one, [⟨0, 2, .rw, false, 0, 2⟩, ⟨8, 8, .rw, false, 0, 255⟩]⟩,
  ⟨0x074, 1, 0x0, [0], .one, [⟨0, 32, .roh, false, 0, 4294967295⟩]⟩,
  ⟨0x078, 1, 0x0, [0], .one, [⟨0, 32, .roh, false, 0, 4294967295⟩]⟩,
  ⟨0x07C, 1, 0x0, [0], .one, [⟨0, 1, .w1c, false, 0, 1⟩, ⟨1, 1, .w1c, false, 0, 1⟩, ⟨2, 1, .w1c, false, 0, 1⟩, ⟨3, 1, .w1c, false, 0, 1⟩]⟩,
  ⟨0x080, 1, 0x0, [0], .one, [⟨0, 4, .rw, false, 0, 15⟩]⟩,
  ⟨0x084, 1, 0x0, [0], .one, [⟨0, 32, .roh, false, 0, 4294967295⟩]⟩,
  ⟨0x088, 1, 0x0, [0], .one, [⟨0, 32, .roh, false, 0, 4294967295⟩]⟩,
  ⟨0x0C0, 1, 0x0, [0], .ind0, [⟨2, 30, .rw, false, 0, 1073741823⟩]⟩,
  ⟨0x0C4, 1, 0x0, [0], .ind1, []⟩,
  ⟨0x0C8, 1, 0x0, [1], .ind2, [⟨0, 1, .rw, false, 0, 1⟩, ⟨8, 8, .rw, false, 0, 255⟩]⟩,
  ⟨0x0CC, 1, 0x0, [0], .ind3, [⟨0, 4, .roh, false, 0, 15⟩]⟩]

/-- Words of the meanderCore page class, part 1 of 1 (11_meander_trace_debug.md R264). -/
def meanderCoreRegs : List RegSpec := [
  ⟨0x040, 1, 0x0, [0x102], .one, [⟨0, 1, .rw, false, 0, 1⟩, ⟨1, 1, .rw, false, 0, 1⟩, ⟨2, 1, .rw, false, 0, 1⟩, ⟨3, 1, .rw, false, 0, 1⟩, ⟨4, 1, .wo, false, 0, 1⟩, ⟨5, 1, .wo, false, 0, 1⟩, ⟨6, 1, .wo, false, 0, 1⟩, ⟨7, 1, .rw, false, 0, 1⟩, ⟨8, 8, .rw, false, 0, 255⟩]⟩,
  ⟨0x044, 1, 0x0, [0x400], .one, [⟨0, 3, .roh, false, 0, 7⟩, ⟨3, 3, .roh, false, 0, 7⟩, ⟨6, 1, .roh, false, 0, 1⟩, ⟨7, 1, .roh, false, 0, 1⟩, ⟨8, 1, .roh, false, 0, 1⟩, ⟨9, 1, .roh, false, 0, 1⟩, ⟨10, 1, .roh, false, 0, 1⟩, ⟨16, 8, .roh, false, 0, 255⟩]⟩,
  ⟨0x048, 1, 0x0, [0], .one, [⟨0, 13, .roh, false, 0, 8191⟩]⟩,
  ⟨0x04C, 1, 0x0, [0], .one, [⟨0, 32, .roh, false, 0, 4294967295⟩]⟩,
  ⟨0x050, 1, 0x0, [0], .one, [⟨0, 32, .roh, false, 0, 4294967295⟩]⟩,
  ⟨0x054, 1, 0x0, [0], .one, [⟨0, 32, .roh, false, 0, 4294967295⟩]⟩,
  ⟨0x058, 1, 0x0, [0], .low, [⟨0, 32, .roh, false, 0, 4294967295⟩]⟩,
  ⟨0x05C, 1, 0x0, [0], .high, [⟨0, 32, .roh, false, 0, 4294967295⟩]⟩,
  ⟨0x060, 1, 0x0, [0], .low, [⟨0, 32, .roh, false, 0, 4294967295⟩]⟩,
  ⟨0x064, 1, 0x0, [0], .high, [⟨0, 32, .roh, false, 0, 4294967295⟩]⟩,
  ⟨0x068, 1, 0x0, [0], .one, [⟨0, 12, .w1c, false, 0, 4095⟩]⟩,
  ⟨0x080, 8, 0x10, [0], .low, [⟨0, 32, .rw, false, 0, 4294967295⟩]⟩,
  ⟨0x084, 8, 0x10, [0], .high, [⟨0, 32, .rw, false, 0, 4294967295⟩]⟩,
  ⟨0x088, 8, 0x10, [0], .one, [⟨0, 1, .rw, false, 0, 1⟩, ⟨1, 1, .rw, false, 0, 1⟩, ⟨2, 1, .rw, false, 0, 1⟩, ⟨3, 1, .rw, false, 0, 1⟩, ⟨4, 6, .rw, false, 0, 63⟩]⟩,
  ⟨0x08C, 8, 0x10, [0], .one, []⟩,
  ⟨0x100, 4, 0x20, [0], .low, [⟨0, 32, .rw, false, 0, 4294967295⟩]⟩,
  ⟨0x104, 4, 0x20, [0], .high, [⟨0, 32, .rw, false, 0, 4294967295⟩]⟩,
  ⟨0x108, 4, 0x20, [0], .low, [⟨0, 32, .rw, false, 0, 4294967295⟩]⟩,
  ⟨0x10C, 4, 0x20, [0], .high, [⟨0, 32, .rw, false, 0, 4294967295⟩]⟩,
  ⟨0x110, 4, 0x20, [0], .one, [⟨0, 4, .rw, false, 0, 15⟩, ⟨4, 1, .rw, false, 0, 1⟩, ⟨5, 1, .rw, false, 0, 1⟩]⟩,
  ⟨0x114, 4, 0x20, [0], .one, []⟩,
  ⟨0x118, 4, 0x20, [0], .one, []⟩,
  ⟨0x11C, 4, 0x20, [0], .one, []⟩,
  ⟨0x180, 8, 0x20, [0], .low, [⟨0, 32, .rw, false, 0, 4294967295⟩]⟩,
  ⟨0x184, 8, 0x20, [0], .high, [⟨0, 32, .rw, false, 0, 4294967295⟩]⟩,
  ⟨0x188, 8, 0x20, [0], .low, [⟨0, 32, .rw, false, 0, 4294967295⟩]⟩,
  ⟨0x18C, 8, 0x20, [0], .high, [⟨0, 32, .rw, false, 0, 4294967295⟩]⟩,
  ⟨0x190, 8, 0x20, [0], .one, [⟨0, 1, .rw, false, 0, 1⟩, ⟨1, 1, .rw, false, 0, 1⟩, ⟨2, 1, .rw, false, 0, 1⟩, ⟨3, 1, .rw, false, 0, 1⟩]⟩,
  ⟨0x194, 8, 0x20, [0], .one, []⟩,
  ⟨0x198, 8, 0x20, [0], .one, []⟩,
  ⟨0x19C, 8, 0x20, [0], .one, []⟩]

/-- Words of the sluice page class, part 1 of 1 (12_sluice_tributary.md R287). -/
def sluiceRegs : List RegSpec := [
  ⟨0x040, 1, 0x0, [7], .one, [⟨0, 1, .rw, false, 0, 1⟩, ⟨1, 1, .rw, false, 0, 1⟩, ⟨2, 1, .rw, false, 0, 1⟩, ⟨3, 1, .rw, false, 0, 1⟩]⟩,
  ⟨0x044, 1, 0x0, [0x64], .one, [⟨0, 7, .rw, false, 25, 100⟩]⟩,
  ⟨0x048, 1, 0x0, [0], .low, [⟨0, 32, .roh, false, 0, 4294967295⟩]⟩,
  ⟨0x04C, 1, 0x0, [0], .high, [⟨0, 32, .roh, false, 0, 4294967295⟩]⟩,
  ⟨0x050, 1, 0x0, [0], .low, [⟨0, 32, .roh, false, 0, 4294967295⟩]⟩,
  ⟨0x054, 1, 0x0, [0], .high, [⟨0, 32, .roh, false, 0, 4294967295⟩]⟩,
  ⟨0x058, 1, 0x0, [0], .one, [⟨0, 32, .roh, false, 0, 4294967295⟩]⟩,
  ⟨0x05C, 1, 0x0, [0], .one, [⟨0, 32, .roh, false, 0, 4294967295⟩]⟩,
  ⟨0x060, 1, 0x0, [0], .one, [⟨0, 32, .roh, false, 0, 4294967295⟩]⟩,
  ⟨0x064, 1, 0x0, [0x2c688], .one, [⟨0, 18, .rw, false, 0, 262143⟩]⟩,
  ⟨0x068, 1, 0x0, [0x14], .one, [⟨0, 8, .rw, false, 0, 255⟩]⟩,
  ⟨0x06C, 3, 0x4, [0], .one, [⟨0, 32, .roh, false, 0, 4294967295⟩]⟩,
  ⟨0x078, 1, 0x0, [0], .one, [⟨0, 32, .roh, false, 0, 4294967295⟩]⟩,
  ⟨0x07C, 1, 0x0, [0], .one, [⟨0, 32, .roh, false, 0, 4294967295⟩]⟩]

/-- Words of the sched page class, part 1 of 1 (12_sluice_tributary.md R287). -/
def schedRegs : List RegSpec := [
  ⟨0x100, 8, 0x4, [0x40, 0x20, 0x10, 0x10, 8, 4, 1, 1], .one, [⟨0, 8, .rw, false, 0, 255⟩]⟩,
  ⟨0x120, 1, 0x0, [0x34], .one, [⟨0, 8, .rw, false, 0, 255⟩]⟩,
  ⟨0x124, 1, 0x0, [0x64], .one, [⟨0, 16, .rw, false, 0, 10000⟩]⟩,
  ⟨0x128, 1, 0x0, [0x32], .one, [⟨0, 7, .rw, false, 1, 64⟩]⟩,
  ⟨0x12C, 1, 0x0, [0x3200], .one, [⟨0, 1, .wo, false, 0, 1⟩, ⟨1, 1, .roh, false, 0, 1⟩, ⟨2, 1, .roh, false, 0, 1⟩, ⟨8, 7, .roh, false, 0, 127⟩]⟩,
  ⟨0x140, 11, 0x10, [0], .one, [⟨0, 20, .roh, false, 0, 1048575⟩]⟩,
  ⟨0x144, 11, 0x10, [0], .one, [⟨0, 20, .roh, false, 0, 1048575⟩]⟩,
  ⟨0x148, 11, 0x10, [0], .one, [⟨0, 32, .roh, false, 0, 4294967295⟩]⟩,
  ⟨0x14C, 11, 0x10, [0], .one, [⟨0, 32, .roh, false, 0, 4294967295⟩]⟩,
  ⟨0x200, 64, 0x4, [0xb0009c4, 0xfd0009c4, 0xb0009c4, 0xfd0009c4, 0xb0009c4, 0xfd0009c4, 0xb0009c4, 0xfd0009c4, 0xb0009c4, 0xfd0009c4, 0xb0009c4, 0xfd0009c4, 0xb0009c4, 0xfd0009c4, 0xb0009c4, 0xfd0009c4, 0xb0009c4, 0xfd0009c4, 0xb0009c4, 0xfd0009c4, 0xb0009c4, 0xfd0009c4, 0xb0009c4, 0xfd0009c4, 0xb0009c4, 0xfd0009c4, 0xb0009c4, 0xfd0009c4, 0xb0009c4, 0xfd0009c4, 0xb0009c4, 0xfd0009c4, 0xb0009c4, 0xfd0009c4, 0xb0009c4, 0xfd0009c4, 0xb0009c4, 0xfd0009c4, 0xb0009c4, 0xfd0009c4, 0xb0009c4, 0xfd0009c4, 0xb0009c4, 0xfd0009c4, 0xb0009c4, 0xfd0009c4, 0xb0009c4, 0xfd0009c4, 0xb0009c4, 0xfd0009c4, 0, 0, 0, 0, 0, 0, 0, 0, 0, 0, 0, 0, 0, 0], .one, [⟨0, 32, .rw, false, 0, 4294967295⟩]⟩,
  ⟨0x300, 64, 0x4, [0xb0009c4, 0xfd0009c4, 0xb0009c4, 0xfd0009c4, 0xb0009c4, 0xfd0009c4, 0xb0009c4, 0xfd0009c4, 0xb0009c4, 0xfd0009c4, 0xb0009c4, 0xfd0009c4, 0xb0009c4, 0xfd0009c4, 0xb0009c4, 0xfd0009c4, 0xb0009c4, 0xfd0009c4, 0xb0009c4, 0xfd0009c4, 0xb0009c4, 0xfd0009c4, 0xb0009c4, 0xfd0009c4, 0xb0009c4, 0xfd0009c4, 0xb0009c4, 0xfd0009c4, 0xb0009c4, 0xfd0009c4, 0xb0009c4, 0xfd0009c4, 0xb0009c4, 0xfd0009c4, 0xb0009c4, 0xfd0009c4, 0xb0009c4, 0xfd0009c4, 0xb0009c4, 0xfd0009c4, 0xb0009c4, 0xfd0009c4, 0xb0009c4, 0xfd0009c4, 0xb0009c4, 0xfd0009c4, 0xb0009c4, 0xfd0009c4, 0xb0009c4, 0xfd0009c4, 0, 0, 0, 0, 0, 0, 0, 0, 0, 0, 0, 0, 0, 0], .one, [⟨0, 32, .roh, false, 0, 4294967295⟩]⟩]

/-- Words of the link page class, part 1 of 1 (12_sluice_tributary.md R288). -/
def linkRegs : List RegSpec := [
  ⟨0x040, 1, 0x0, [0], .one, [⟨0, 1, .wo, false, 0, 1⟩]⟩,
  ⟨0x044, 1, 0x0, [0xff00], .one, [⟨0, 2, .roh, false, 0, 3⟩, ⟨2, 1, .roh, false, 0, 1⟩, ⟨8, 8, .roh, false, 0, 255⟩]⟩,
  ⟨0x048, 1, 0x0, [0xffffffff], .one, [⟨0, 32, .roh, false, 0, 4294967295⟩]⟩,
  ⟨0x04C, 1, 0x0, [0], .one, [⟨0, 32, .roh, false, 0, 4294967295⟩]⟩,
  ⟨0x050, 1, 0x0, [0], .one, [⟨0, 32, .roh, false, 0, 4294967295⟩]⟩,
  ⟨0x054, 1, 0x0, [0], .one, [⟨0, 32, .roh, false, 0, 4294967295⟩]⟩,
  ⟨0x058, 1, 0x0, [0], .one, [⟨0, 32, .roh, false, 0, 4294967295⟩]⟩,
  ⟨0x05C, 1, 0x0, [0], .one, [⟨0, 32, .roh, false, 0, 4294967295⟩]⟩,
  ⟨0x060, 1, 0x0, [0], .low, [⟨0, 32, .roh, false, 0, 4294967295⟩]⟩,
  ⟨0x064, 1, 0x0, [0], .high, [⟨0, 32, .roh, false, 0, 4294967295⟩]⟩,
  ⟨0x068, 1, 0x0, [0], .low, [⟨0, 32, .roh, false, 0, 4294967295⟩]⟩,
  ⟨0x06C, 1, 0x0, [0], .high, [⟨0, 32, .roh, false, 0, 4294967295⟩]⟩,
  ⟨0x070, 1, 0x0, [0], .low, [⟨0, 32, .roh, false, 0, 4294967295⟩]⟩,
  ⟨0x074, 1, 0x0, [0], .high, [⟨0, 32, .roh, false, 0, 4294967295⟩]⟩,
  ⟨0x078, 1, 0x0, [0], .low, [⟨0, 32, .roh, false, 0, 4294967295⟩]⟩,
  ⟨0x07C, 1, 0x0, [0], .high, [⟨0, 32, .roh, false, 0, 4294967295⟩]⟩,
  ⟨0x080, 1, 0x0, [0], .one, [⟨0, 32, .roh, false, 0, 4294967295⟩]⟩,
  ⟨0x084, 1, 0x0, [0x10], .one, [⟨0, 16, .rw, false, 1, 65535⟩]⟩]

/-- Words of the confluence page class, part 1 of 2 (13_confluence_aggregation.md R317). -/
def confluenceRegs1 : List RegSpec := [
  ⟨0x040, 1, 0x0, [5], .one, [⟨0, 1, .rw, false, 0, 1⟩, ⟨1, 1, .rw, false, 0, 1⟩, ⟨2, 1, .rw, false, 0, 1⟩, ⟨3, 1, .wo, false, 0, 1⟩, ⟨4, 1, .wo, false, 0, 1⟩]⟩,
  ⟨0x044, 1, 0x0, [0], .one, [⟨0, 1, .roh, false, 0, 1⟩, ⟨1, 1, .roh, false, 0, 1⟩, ⟨2, 1, .roh, false, 0, 1⟩, ⟨3, 7, .roh, false, 0, 127⟩, ⟨10, 7, .roh, false, 0, 127⟩]⟩,
  ⟨0x048, 1, 0x0, [0], .one, [⟨0, 32, .roh, false, 0, 4294967295⟩]⟩,
  ⟨0x04C, 1, 0x0, [0xffffffff], .one, [⟨0, 32, .rw, true, 0, 4294967295⟩]⟩,
  ⟨0x050, 1, 0x0, [0xffffffff], .one, [⟨0, 32, .rw, true, 0, 4294967295⟩]⟩,
  ⟨0x054, 1, 0x0, [0x9c40], .one, [⟨0, 32, .rw, false, 10000, 1000000⟩]⟩,
  ⟨0x058, 1, 0x0, [0x3d090], .one, [⟨0, 32, .rw, false, 100000, 10000000⟩]⟩,
  ⟨0x05C, 1, 0x0, [0x989680], .one, [⟨0, 32, .rw, false, 20000, 4000000000⟩]⟩,
  ⟨0x060, 4, 0x4, [0x70, 0x61, 0x52, 0x76], .one, [⟨0, 6, .rw, true, 0, 63⟩, ⟨6, 1, .rw, true, 0, 1⟩]⟩,
  ⟨0x070, 1, 0x0, [0x405], .one, [⟨0, 8, .rw, false, 1, 100⟩, ⟨8, 5, .rw, false, 1, 16⟩]⟩,
  ⟨0x074, 1, 0x0, [0xc350], .one, [⟨0, 32, .rw, false, 0, 100000000⟩]⟩,
  ⟨0x078, 1, 0x0, [0x3e8], .one, [⟨0, 32, .rw, false, 100, 60000⟩]⟩,
  ⟨0x07C, 1, 0x0, [0], .one, [⟨0, 32, .rw, true, 0, 4294967295⟩]⟩,
  ⟨0x080, 1, 0x0, [0x3e8], .one, [⟨0, 17, .rw, false, 0, 100000⟩]⟩,
  ⟨0x084, 1, 0x0, [0xffffffff], .one, [⟨0, 32, .rw, false, 0, 4294967295⟩]⟩,
  ⟨0x088, 1, 0x0, [0x2dc6c0], .one, [⟨0, 32, .rw, false, 1000000, 100000000⟩]⟩,
  ⟨0x08C, 1, 0x0, [0x1e8480], .one, [⟨0, 32, .rw, false, 100000, 100000000⟩]⟩,
  ⟨0x090, 1, 0x0, [0xa0], .one, [⟨0, 16, .rw, false, 1, 65535⟩]⟩,
  ⟨0x094, 1, 0x0, [0x1e8480], .one, [⟨0, 32, .rw, false, 200000, 1000000000⟩]⟩,
  ⟨0x098, 1, 0x0, [0x186a0], .one, [⟨0, 32, .rw, false, 10000, 10000000⟩]⟩,
  ⟨0x09C, 1, 0x0, [0x1234567], .one, [⟨0, 32, .rw, false, 0, 4294967295⟩]⟩,
  ⟨0x0A0, 1, 0x0, [0xf], .one, [⟨0, 4, .rw, false, 0, 15⟩]⟩,
  ⟨0x0A4, 1, 0x0, [0x1388], .one, [⟨0, 32, .rw, false, 0, 60000⟩]⟩,
  ⟨0x0A8, 1, 0x0, [0x258], .one, [⟨0, 32, .rw, false, 10, 86400⟩]⟩,
  ⟨0x0AC, 1, 0x0, [1], .one, [⟨0, 16, .roh, false, 0, 65535⟩]⟩,
  ⟨0x0B0, 1, 0x0, [0], .one, [⟨0, 32, .roh, false, 0, 4294967295⟩]⟩,
  ⟨0x0B4, 1, 0x0, [0], .one, [⟨0, 32, .roh, false, 0, 4294967295⟩]⟩,
  ⟨0x0B8, 1, 0x0, [0], .one, [⟨0, 32, .roh, false, 0, 4294967295⟩]⟩,
  ⟨0x0BC, 1, 0x0, [0], .one, [⟨0, 32, .roh, false, 0, 4294967295⟩]⟩,
  ⟨0x0C0, 1, 0x0, [0], .one, [⟨0, 32, .roh, false, 0, 4294967295⟩]⟩,
  ⟨0x0C4, 1, 0x0, [0], .one, [⟨0, 32, .roh, false, 0, 4294967295⟩]⟩,
  ⟨0x0C8, 1, 0x0, [0], .one, [⟨0, 32, .roh, false, 0, 4294967295⟩]⟩,
  ⟨0x0CC, 1, 0x0, [0], .one, [⟨0, 32, .roh, false, 0, 4294967295⟩]⟩,
  ⟨0x0D0, 8, 0x4, [0], .one, [⟨0, 32, .roh, false, 0, 4294967295⟩]⟩,
  ⟨0x0F0, 1, 0x0, [0], .one, [⟨0, 32, .roh, false, 0, 4294967295⟩]⟩,
  ⟨0x0F4, 1, 0x0, [0], .one, [⟨0, 1, .wo, false, 0, 1⟩, ⟨1, 3, .wo, false, 0, 7⟩, ⟨4, 1, .wo, false, 0, 1⟩, ⟨8, 8, .roh, false, 0, 255⟩, ⟨16, 8, .roh, false, 0, 255⟩]⟩,
  ⟨0x100, 16, 0x4, [0], .one, [⟨0, 1, .roh, false, 0, 1⟩, ⟨1, 1, .roh, false, 0, 1⟩, ⟨2, 1, .roh, false, 0, 1⟩, ⟨3, 1, .roh, false, 0, 1⟩, ⟨4, 1, .wo, false, 0, 1⟩, ⟨5, 1, .roh, false, 0, 1⟩, ⟨6, 1, .roh, false, 0, 1⟩, ⟨7, 1, .wo, false, 0, 1⟩, ⟨16, 16, .rw, false, 0, 65535⟩]⟩,
  ⟨0x140, 1, 0x0, [0], .ind0, [⟨2, 30, .rw, false, 0, 1073741823⟩]⟩,
  ⟨0x144, 1, 0x0, [0], .ind1, []⟩,
  ⟨0x148, 1, 0x0, [1], .ind2, [⟨0, 1, .rw, false, 0, 1⟩, ⟨8, 8, .rw, false, 0, 255⟩]⟩]

/-- Words of the confluence page class, part 2 of 2 (13_confluence_aggregation.md R317). -/
def confluenceRegs2 : List RegSpec := [
  ⟨0x14C, 1, 0x0, [0], .ind3, [⟨0, 4, .roh, false, 0, 15⟩]⟩]

/-- Words of the confluence page class (13_confluence_aggregation.md R317). -/
def confluenceRegs : List RegSpec := confluenceRegs1 ++ confluenceRegs2

/-- Words of the millrace page class, part 1 of 1 (14_millrace_firmware.md R339). -/
def millraceRegs : List RegSpec := [
  ⟨0x040, 1, 0x0, [1], .one, [⟨0, 1, .rw, false, 0, 1⟩, ⟨1, 1, .wo, false, 0, 1⟩, ⟨2, 1, .wo, false, 0, 1⟩, ⟨3, 1, .wo, false, 0, 1⟩]⟩,
  ⟨0x044, 1, 0x0, [0], .one, [⟨0, 3, .roh, false, 0, 7⟩, ⟨8, 8, .roh, false, 0, 255⟩, ⟨16, 8, .roh, false, 0, 255⟩]⟩,
  ⟨0x048, 1, 0x0, [0], .one, [⟨0, 2, .roh, false, 0, 3⟩, ⟨2, 1, .roh, false, 0, 1⟩, ⟨16, 16, .roh, false, 0, 65535⟩]⟩,
  ⟨0x04C, 1, 0x0, [0], .one, [⟨0, 16, .wo, false, 0, 65535⟩, ⟨16, 16, .wo, false, 0, 65535⟩]⟩,
  ⟨0x050, 1, 0x0, [0], .one, [⟨16, 16, .wo, false, 0, 65535⟩]⟩,
  ⟨0x054, 1, 0x0, [0x1f4], .one, [⟨0, 32, .rw, false, 100, 10000⟩]⟩,
  ⟨0x058, 1, 0x0, [0], .low, [⟨0, 32, .roh, false, 0, 4294967295⟩]⟩,
  ⟨0x05C, 1, 0x0, [0], .high, [⟨0, 32, .roh, false, 0, 4294967295⟩]⟩,
  ⟨0x060, 1, 0x0, [0xa], .one, [⟨0, 8, .rw, false, 2, 100⟩]⟩,
  ⟨0x064, 1, 0x0, [0], .one, [⟨0, 32, .roh, false, 0, 4294967295⟩]⟩,
  ⟨0x068, 1, 0x0, [0], .one, [⟨0, 32, .roh, false, 0, 4294967295⟩]⟩,
  ⟨0x06C, 1, 0x0, [0], .one, [⟨0, 16, .roh, false, 0, 65535⟩]⟩,
  ⟨0x070, 1, 0x0, [0], .one, [⟨0, 16, .rwl, false, 0, 65535⟩]⟩,
  ⟨0x074, 1, 0x0, [0], .one, [⟨0, 3, .roh, false, 0, 7⟩, ⟨8, 8, .roh, false, 0, 255⟩]⟩,
  ⟨0x078, 1, 0x0, [0x3c], .one, [⟨0, 32, .rw, false, 0, 3600⟩]⟩,
  ⟨0x07C, 1, 0x0, [0xc8], .one, [⟨0, 32, .rw, false, 50, 2000⟩]⟩,
  ⟨0x080, 8, 0x4, [0, 0x10000, 0x20000, 0x40000, 0x80000, 0x100000, 0x200000, 0xc00000], .one, [⟨0, 2, .roh, false, 0, 3⟩, ⟨8, 8, .roh, false, 0, 255⟩, ⟨16, 16, .roh, false, 0, 65535⟩]⟩,
  ⟨0x0A0, 1, 0x0, [0], .one, [⟨0, 32, .roh, false, 0, 4294967295⟩]⟩,
  ⟨0x0A4, 1, 0x0, [0], .one, [⟨0, 32, .roh, false, 0, 4294967295⟩]⟩,
  ⟨0x0A8, 1, 0x0, [0], .one, [⟨0, 32, .roh, false, 0, 4294967295⟩]⟩,
  ⟨0x0AC, 1, 0x0, [0], .one, [⟨0, 32, .roh, false, 0, 4294967295⟩]⟩,
  ⟨0x0B0, 1, 0x0, [0], .one, [⟨0, 32, .roh, false, 0, 4294967295⟩]⟩,
  ⟨0x0B4, 1, 0x0, [0], .one, [⟨0, 32, .roh, false, 0, 4294967295⟩]⟩,
  ⟨0x0B8, 1, 0x0, [0], .one, [⟨0, 32, .roh, false, 0, 4294967295⟩]⟩,
  ⟨0x0BC, 1, 0x0, [0], .one, []⟩,
  ⟨0x0C0, 4, 0x20, [6], .one, [⟨0, 4, .rw, true, 6, 12⟩, ⟨4, 1, .rw, false, 0, 1⟩]⟩,
  ⟨0x0C4, 4, 0x20, [0], .one, [⟨0, 12, .rw, false, 0, 4095⟩]⟩,
  ⟨0x0C8, 4, 0x20, [0], .one, [⟨0, 12, .roh, false, 0, 4095⟩]⟩,
  ⟨0x0CC, 4, 0x20, [0], .one, [⟨0, 12, .roh, false, 0, 4095⟩]⟩,
  ⟨0x0D0, 4, 0x20, [0], .one, [⟨0, 12, .rw, false, 0, 4095⟩]⟩,
  ⟨0x0D4, 4, 0x20, [0], .one, []⟩,
  ⟨0x0D8, 4, 0x20, [0], .one, []⟩,
  ⟨0x0DC, 4, 0x20, [0], .one, []⟩]

/-- Words of the levee page class, part 1 of 1 (15_levee_power_steps.md R356). -/
def leveeRegs : List RegSpec := [
  ⟨0x040, 1, 0x0, [0], .one, [⟨0, 1, .wo, false, 0, 1⟩, ⟨1, 1, .wo, false, 0, 1⟩]⟩,
  ⟨0x044, 1, 0x0, [0], .one, [⟨0, 1, .roh, false, 0, 1⟩, ⟨1, 1, .roh, false, 0, 1⟩, ⟨2, 1, .roh, false, 0, 1⟩, ⟨8, 5, .roh, false, 0, 31⟩]⟩,
  ⟨0x048, 1, 0x0, [0xc350], .one, [⟨0, 32, .rw, false, 5000, 50000⟩]⟩,
  ⟨0x04C, 1, 0x0, [0], .one, [⟨0, 6, .rwl, false, 1, 40⟩]⟩,
  ⟨0x050, 1, 0x0, [0x3e8], .one, [⟨0, 32, .rw, false, 10, 1000000⟩]⟩,
  ⟨0x054, 1, 0x0, [0], .one, [⟨0, 14, .rwl, false, 0, 10000⟩]⟩,
  ⟨0x058, 1, 0x0, [0], .one, [⟨0, 16, .wo, false, 0, 65535⟩]⟩,
  ⟨0x05C, 1, 0x0, [0], .one, [⟨0, 32, .roh, false, 0, 4294967295⟩]⟩,
  ⟨0x060, 1, 0x0, [0], .one, [⟨0, 16, .roh, false, 0, 65535⟩]⟩,
  ⟨0x064, 1, 0x0, [0], .one, [⟨0, 32, .roh, false, 0, 4294967295⟩]⟩,
  ⟨0x068, 1, 0x0, [0], .one, [⟨0, 32, .rw, false, 0, 4294967295⟩]⟩,
  ⟨0x06C, 1, 0x0, [0], .one, [⟨0, 3, .rwl, false, 0, 7⟩, ⟨4, 3, .rwl, false, 0, 7⟩, ⟨8, 3, .rwl, false, 0, 7⟩, ⟨12, 3, .rwl, false, 0, 7⟩, ⟨16, 3, .rwl, false, 0, 7⟩, ⟨20, 3, .rwl, false, 0, 7⟩, ⟨24, 3, .rwl, false, 0, 7⟩, ⟨28, 3, .rwl, false, 0, 7⟩]⟩,
  ⟨0x070, 1, 0x0, [0], .one, [⟨0, 3, .rwl, false, 0, 7⟩, ⟨4, 3, .rwl, false, 0, 7⟩, ⟨8, 3, .rwl, false, 0, 7⟩, ⟨12, 3, .rwl, false, 0, 7⟩, ⟨16, 3, .rwl, false, 0, 7⟩, ⟨20, 3, .rwl, false, 0, 7⟩, ⟨24, 3, .rwl, false, 0, 7⟩, ⟨28, 3, .rwl, false, 0, 7⟩]⟩,
  ⟨0x074, 1, 0x0, [1], .one, [⟨0, 11, .rw, false, 1, 1024⟩]⟩,
  ⟨0x078, 1, 0x0, [0], .low, [⟨0, 32, .rw, false, 0, 4294967295⟩]⟩,
  ⟨0x07C, 1, 0x0, [0], .high, [⟨0, 32, .rw, false, 0, 4294967295⟩]⟩,
  ⟨0x080, 1, 0x0, [0x9c40], .one, [⟨0, 32, .rw, false, 5000, 1000000⟩]⟩,
  ⟨0x084, 1, 0x0, [3], .one, [⟨0, 4, .rw, false, 1, 15⟩]⟩,
  ⟨0x088, 1, 0x0, [0], .one, [⟨0, 11, .roh, false, 0, 2047⟩]⟩,
  ⟨0x08C, 1, 0x0, [0], .one, [⟨0, 32, .roh, false, 0, 4294967295⟩]⟩,
  ⟨0x090, 1, 0x0, [0], .one, [⟨0, 32, .roh, false, 0, 4294967295⟩]⟩,
  ⟨0x094, 1, 0x0, [0], .one, [⟨0, 32, .roh, false, 0, 4294967295⟩]⟩,
  ⟨0x098, 1, 0x0, [0], .one, [⟨0, 32, .roh, false, 0, 4294967295⟩]⟩,
  ⟨0x100, 96, 0x10, [0], .one, [⟨0, 2, .ro, false, 0, 3⟩, ⟨2, 1, .ro, false, 0, 1⟩, ⟨3, 1, .ro, false, 0, 1⟩, ⟨4, 12, .rwl, false, 0, 4095⟩, ⟨16, 16, .rwl, false, 0, 65535⟩]⟩,
  ⟨0x104, 96, 0x10, [0], .one, [⟨0, 16, .rwl, false, 0, 65535⟩, ⟨16, 16, .rwl, false, 0, 65535⟩]⟩,
  ⟨0x108, 96, 0x10, [0], .one, [⟨0, 16, .rwl, false, 0, 65535⟩, ⟨16, 16, .rwl, false, 0, 65535⟩]⟩,
  ⟨0x10C, 96, 0x10, [0], .one, [⟨0, 16, .roh, false, 0, 65535⟩, ⟨16, 2, .roh, false, 0, 3⟩, ⟨18, 1, .roh, false, 0, 1⟩, ⟨19, 1, .roh, false, 0, 1⟩]⟩,
  ⟨0x700, 16, 0x8, [0], .one, [⟨0, 32, .roh, false, 0, 4294967295⟩]⟩,
  ⟨0x704, 16, 0x8, [0], .one, [⟨0, 32, .roh, false, 0, 4294967295⟩]⟩,
  ⟨0x780, 1, 0x0, [0], .ind0, [⟨2, 30, .rw, false, 0, 1073741823⟩]⟩,
  ⟨0x784, 1, 0x0, [0], .ind1, []⟩,
  ⟨0x788, 1, 0x0, [1], .ind2, [⟨0, 1, .rw, false, 0, 1⟩, ⟨8, 8, .rw, false, 0, 255⟩]⟩,
  ⟨0x78C, 1, 0x0, [0], .ind3, [⟨0, 4, .roh, false, 0, 15⟩]⟩]

/-- Words of the global page class, part 1 of 1 (15_levee_power_steps.md R358; 17_power_up_identity.md R409; 18_die_unit_integration.md R425). -/
def globalRegs : List RegSpec := [
  ⟨0x100, 1, 0x0, [0], .one, [⟨0, 3, .roh, false, 0, 7⟩, ⟨3, 1, .roh, false, 0, 1⟩, ⟨4, 3, .roh, false, 0, 7⟩, ⟨7, 1, .roh, false, 0, 1⟩, ⟨8, 1, .roh, false, 0, 1⟩]⟩,
  ⟨0x104, 1, 0x0, [0], .one, [⟨0, 32, .roh, false, 0, 4294967295⟩]⟩,
  ⟨0x108, 1, 0x0, [0xffffffff], .one, [⟨0, 32, .roh, false, 0, 4294967295⟩]⟩,
  ⟨0x10C, 1, 0x0, [0], .low, [⟨0, 32, .roh, false, 0, 4294967295⟩]⟩,
  ⟨0x110, 1, 0x0, [0], .high, [⟨0, 32, .roh, false, 0, 4294967295⟩]⟩,
  ⟨0x114, 1, 0x0, [0], .one, [⟨0, 32, .roh, false, 0, 4294967295⟩]⟩,
  ⟨0x118, 1, 0x0, [0], .one, [⟨0, 32, .roh, false, 0, 4294967295⟩]⟩,
  ⟨0x11C, 1, 0x0, [0], .one, [⟨0, 32, .roh, false, 0, 4294967295⟩]⟩,
  ⟨0x044, 1, 0x0, [0], .one, [⟨0, 32, .wo, false, 0, 4294967295⟩]⟩,
  ⟨0x048, 1, 0x0, [0], .one, [⟨0, 4, .ro, false, 0, 15⟩, ⟨8, 1, .roh, false, 0, 1⟩, ⟨9, 1, .roh, false, 0, 1⟩]⟩,
  ⟨0x04C, 1, 0x0, [0], .one, [⟨0, 32, .ro, false, 0, 4294967295⟩]⟩,
  ⟨0x050, 1, 0x0, [0], .one, [⟨0, 1, .w1c, false, 0, 1⟩, ⟨1, 1, .w1c, false, 0, 1⟩, ⟨2, 1, .w1c, false, 0, 1⟩, ⟨3, 1, .w1c, false, 0, 1⟩, ⟨4, 1, .w1c, false, 0, 1⟩, ⟨5, 1, .w1c, false, 0, 1⟩]⟩,
  ⟨0x054, 1, 0x0, [0], .one, [⟨0, 6, .rw, false, 0, 63⟩]⟩]

/-- Words of the estuary page class, part 1 of 1 (16_estuary_interfaces.md R387). -/
def estuaryRegs : List RegSpec := [
  ⟨0x040, 1, 0x0, [0], .one, [⟨0, 1, .roh, false, 0, 1⟩, ⟨1, 3, .roh, false, 0, 7⟩, ⟨4, 3, .roh, false, 0, 7⟩, ⟨7, 1, .roh, false, 0, 1⟩, ⟨8, 1, .roh, false, 0, 1⟩]⟩,
  ⟨0x044, 1, 0x0, [0x4e20], .one, [⟨0, 32, .rw, false, 2000, 1000000⟩]⟩,
  ⟨0x048, 1, 0x0, [0x3e8], .one, [⟨0, 32, .rw, false, 50, 100000⟩]⟩,
  ⟨0x04C, 1, 0x0, [2], .one, [⟨0, 3, .rw, false, 0, 7⟩]⟩,
  ⟨0x050, 1, 0x0, [0x7d0], .one, [⟨0, 32, .rw, false, 250, 1000000⟩]⟩,
  ⟨0x054, 1, 0x0, [0], .one, [⟨0, 11, .roh, false, 0, 2047⟩, ⟨16, 11, .roh, false, 0, 2047⟩]⟩,
  ⟨0x058, 1, 0x0, [0], .one, [⟨0, 7, .roh, false, 0, 127⟩]⟩,
  ⟨0x05C, 1, 0x0, [0], .one, [⟨0, 32, .roh, false, 0, 4294967295⟩]⟩,
  ⟨0x060, 1, 0x0, [0], .one, [⟨0, 32, .roh, false, 0, 4294967295⟩]⟩,
  ⟨0x064, 1, 0x0, [0], .one, [⟨0, 32, .roh, false, 0, 4294967295⟩]⟩,
  ⟨0x068, 1, 0x0, [0], .one, [⟨0, 32, .roh, false, 0, 4294967295⟩]⟩,
  ⟨0x06C, 1, 0x0, [0], .one, [⟨0, 32, .roh, false, 0, 4294967295⟩]⟩,
  ⟨0x070, 1, 0x0, [0], .one, [⟨0, 32, .roh, false, 0, 4294967295⟩]⟩,
  ⟨0x074, 1, 0x0, [0], .one, [⟨0, 4, .w1c, false, 0, 15⟩]⟩,
  ⟨0x078, 1, 0x0, [0], .one, [⟨0, 4, .rw, false, 0, 15⟩]⟩,
  ⟨0x080, 4, 0x20, [0], .low, [⟨0, 32, .rw, true, 0, 4294967295⟩]⟩,
  ⟨0x084, 4, 0x20, [0], .high, [⟨0, 32, .rw, true, 0, 4294967295⟩]⟩,
  ⟨0x088, 4, 0x20, [0], .low, [⟨0, 32, .rw, true, 0, 4294967295⟩]⟩,
  ⟨0x08C, 4, 0x20, [0], .high, [⟨0, 32, .rw, true, 0, 4294967295⟩]⟩,
  ⟨0x090, 4, 0x20, [0x14], .one, [⟨0, 6, .rw, true, 16, 32⟩, ⟨6, 1, .rw, false, 0, 1⟩]⟩,
  ⟨0x094, 4, 0x20, [0], .one, [⟨0, 32, .rw, false, 0, 4294967295⟩]⟩,
  ⟨0x098, 4, 0x20, [0], .one, [⟨0, 32, .roh, false, 0, 4294967295⟩]⟩,
  ⟨0x09C, 4, 0x20, [0], .one, [⟨0, 32, .roh, false, 0, 4294967295⟩]⟩,
  ⟨0x100, 1, 0x0, [0xa0011], .one, [⟨0, 1, .rw, false, 0, 1⟩, ⟨1, 1, .wo, false, 0, 1⟩, ⟨2, 1, .wo, false, 0, 1⟩, ⟨3, 1, .rw, true, 0, 1⟩, ⟨4, 1, .rw, true, 0, 1⟩, ⟨8, 7, .rw, true, 0, 127⟩, ⟨16, 4, .rw, true, 0, 10⟩]⟩,
  ⟨0x104, 1, 0x0, [8], .one, [⟨0, 3, .roh, false, 0, 7⟩, ⟨3, 3, .roh, false, 0, 7⟩, ⟨6, 1, .roh, false, 0, 1⟩]⟩,
  ⟨0x108, 1, 0x0, [0x3e8], .one, [⟨0, 32, .rw, false, 16, 1000000⟩]⟩,
  ⟨0x10C, 1, 0x0, [0x989680], .one, [⟨0, 32, .rw, false, 1000000, 1000000000⟩]⟩,
  ⟨0x110, 1, 0x0, [0], .one, [⟨0, 32, .roh, false, 0, 4294967295⟩]⟩,
  ⟨0x114, 1, 0x0, [0], .one, [⟨0, 32, .roh, false, 0, 4294967295⟩]⟩,
  ⟨0x118, 1, 0x0, [0], .low, [⟨0, 32, .roh, false, 0, 4294967295⟩]⟩,
  ⟨0x11C, 1, 0x0, [0], .high, [⟨0, 32, .roh, false, 0, 4294967295⟩]⟩,
  ⟨0x120, 1, 0x0, [0x190], .one, [⟨0, 16, .rw, false, 10, 10000⟩]⟩,
  ⟨0x124, 1, 0x0, [0], .low, [⟨0, 32, .roh, false, 0, 4294967295⟩]⟩,
  ⟨0x128, 1, 0x0, [0], .high, [⟨0, 32, .roh, false, 0, 4294967295⟩]⟩,
  ⟨0x12C, 1, 0x0, [0], .one, [⟨0, 32, .roh, false, 0, 4294967295⟩]⟩,
  ⟨0x140, 1, 0x0, [0], .ind0, [⟨2, 30, .rw, false, 0, 1073741823⟩]⟩,
  ⟨0x144, 1, 0x0, [0], .ind1, []⟩,
  ⟨0x148, 1, 0x0, [1], .ind2, [⟨0, 1, .rw, false, 0, 1⟩, ⟨8, 8, .rw, false, 0, 255⟩]⟩,
  ⟨0x14C, 1, 0x0, [0], .ind3, [⟨0, 4, .roh, false, 0, 15⟩]⟩]

/-- Words of the ringCmd page class, part 1 of 1 (16_estuary_interfaces.md R388). -/
def ringCmdRegs : List RegSpec := [
  ⟨0x040, 1, 0x0, [0x400008], .one, [⟨0, 5, .rw, true, 4, 16⟩, ⟨5, 1, .rw, true, 0, 1⟩, ⟨16, 11, .rw, false, 1, 1024⟩]⟩,
  ⟨0x044, 1, 0x0, [0], .low, [⟨0, 32, .rw, true, 0, 4294967295⟩]⟩,
  ⟨0x048, 1, 0x0, [0], .high, [⟨0, 32, .rw, true, 0, 4294967295⟩]⟩,
  ⟨0x04C, 1, 0x0, [0], .one, [⟨0, 32, .rw, false, 0, 4294967295⟩]⟩,
  ⟨0x050, 1, 0x0, [0], .one, [⟨0, 32, .roh, false, 0, 4294967295⟩]⟩,
  ⟨0x054, 1, 0x0, [0], .one, [⟨0, 3, .roh, false, 0, 7⟩, ⟨3, 1, .roh, false, 0, 1⟩, ⟨16, 11, .roh, false, 0, 2047⟩]⟩,
  ⟨0x058, 1, 0x0, [0], .one, [⟨0, 1, .wo, false, 0, 1⟩]⟩,
  ⟨0x05C, 1, 0x0, [0], .one, [⟨0, 32, .rw, false, 0, 60000⟩]⟩,
  ⟨0x060, 1, 0x0, [0], .one, [⟨0, 2, .roh, false, 0, 3⟩]⟩,
  ⟨0x064, 1, 0x0, [0], .low, [⟨0, 32, .roh, false, 0, 4294967295⟩]⟩,
  ⟨0x068, 1, 0x0, [0], .high, [⟨0, 32, .roh, false, 0, 4294967295⟩]⟩,
  ⟨0x06C, 1, 0x0, [0], .one, [⟨0, 7, .roh, false, 0, 127⟩, ⟨16, 11, .roh, false, 0, 2047⟩]⟩,
  ⟨0x070, 1, 0x0, [0], .one, [⟨0, 32, .roh, false, 0, 4294967295⟩]⟩]

/-- Words of the ringCpl page class, part 1 of 1 (16_estuary_interfaces.md R388). -/
def ringCplRegs : List RegSpec := [
  ⟨0x040, 1, 0x0, [0x28], .one, [⟨0, 5, .rw, true, 4, 16⟩, ⟨5, 1, .rw, false, 0, 1⟩, ⟨16, 16, .rw, false, 0, 65535⟩]⟩,
  ⟨0x044, 1, 0x0, [0], .low, [⟨0, 32, .rw, true, 0, 4294967295⟩]⟩,
  ⟨0x048, 1, 0x0, [0], .high, [⟨0, 32, .rw, true, 0, 4294967295⟩]⟩,
  ⟨0x04C, 1, 0x0, [0], .one, [⟨0, 32, .rw, false, 0, 4294967295⟩]⟩,
  ⟨0x050, 1, 0x0, [0], .one, [⟨0, 32, .roh, false, 0, 4294967295⟩]⟩]

/-- Words of the eth page class, part 1 of 1 (16_estuary_interfaces.md R389). -/
def ethRegs : List RegSpec := [
  ⟨0x040, 1, 0x0, [4], .one, [⟨0, 2, .rw, true, 0, 2⟩, ⟨2, 1, .rw, true, 0, 1⟩, ⟨3, 1, .wo, false, 0, 1⟩]⟩,
  ⟨0x044, 1, 0x0, [0], .one, [⟨0, 1, .roh, false, 0, 1⟩, ⟨1, 1, .roh, false, 0, 1⟩, ⟨2, 1, .roh, false, 0, 1⟩, ⟨4, 4, .roh, false, 0, 15⟩]⟩,
  ⟨0x048, 1, 0x0, [0x2400], .one, [⟨0, 14, .rw, false, 1518, 9216⟩]⟩,
  ⟨0x04C, 1, 0x0, [0], .one, [⟨0, 16, .rw, false, 0, 65535⟩]⟩,
  ⟨0x050, 1, 0x0, [0], .one, [⟨0, 32, .roh, false, 0, 4294967295⟩]⟩,
  ⟨0x054, 1, 0x0, [0], .one, [⟨0, 32, .roh, false, 0, 4294967295⟩]⟩,
  ⟨0x058, 1, 0x0, [0], .one, [⟨0, 32, .roh, false, 0, 4294967295⟩]⟩,
  ⟨0x05C, 1, 0x0, [0], .one, [⟨0, 32, .roh, false, 0, 4294967295⟩]⟩,
  ⟨0x060, 1, 0x0, [0], .one, [⟨0, 32, .roh, false, 0, 4294967295⟩]⟩,
  ⟨0x064, 1, 0x0, [0], .one, [⟨0, 32, .roh, false, 0, 4294967295⟩]⟩,
  ⟨0x068, 1, 0x0, [0], .one, [⟨0, 32, .roh, false, 0, 4294967295⟩]⟩,
  ⟨0x06C, 1, 0x0, [0], .one, [⟨0, 32, .roh, false, 0, 4294967295⟩]⟩,
  ⟨0x070, 1, 0x0, [0], .one, [⟨0, 32, .roh, false, 0, 4294967295⟩]⟩]

/-- Words of the aggGlobal page class, part 1 of 1 (17_power_up_identity.md R410; 19_aggregator_chip.md R453). -/
def aggGlobalRegs : List RegSpec := [
  ⟨0x040, 1, 0x0, [0], .one, [⟨0, 3, .roh, false, 0, 7⟩, ⟨3, 1, .roh, false, 0, 1⟩, ⟨4, 1, .roh, false, 0, 1⟩, ⟨8, 1, .ro, false, 0, 1⟩, ⟨9, 1, .ro, false, 0, 1⟩, ⟨10, 1, .ro, false, 0, 1⟩]⟩,
  ⟨0x044, 1, 0x0, [0], .low, [⟨0, 32, .roh, false, 0, 4294967295⟩]⟩,
  ⟨0x048, 1, 0x0, [0], .high, [⟨0, 16, .roh, false, 0, 65535⟩]⟩,
  ⟨0x04C, 1, 0x0, [0], .one, [⟨0, 13, .roh, false, 0, 8191⟩, ⟨16, 13, .roh, false, 0, 8191⟩]⟩,
  ⟨0x050, 1, 0x0, [0], .one, []⟩,
  ⟨0x054, 1, 0x0, [0], .one, []⟩,
  ⟨0x058, 1, 0x0, [0], .one, []⟩,
  ⟨0x05C, 1, 0x0, [0], .one, []⟩,
  ⟨0x060, 1, 0x0, [0x8000], .one, [⟨0, 16, .roh, false, 0, 65535⟩]⟩,
  ⟨0x064, 1, 0x0, [0], .one, [⟨0, 16, .roh, false, 0, 65535⟩]⟩,
  ⟨0x068, 1, 0x0, [0x6a0], .one, [⟨0, 16, .rwl, false, 0, 65535⟩]⟩]

/-- Words of the ident page class, part 1 of 1 (17_power_up_identity.md R411). -/
def identRegs : List RegSpec := [
  ⟨0x040, 1, 0x0, [0], .one, [⟨0, 1, .wo, false, 0, 1⟩, ⟨1, 1, .wo, false, 0, 1⟩, ⟨8, 4, .wo, false, 0, 15⟩]⟩,
  ⟨0x044, 1, 0x0, [0], .one, [⟨0, 1, .roh, false, 0, 1⟩, ⟨8, 4, .roh, false, 0, 15⟩]⟩,
  ⟨0x048, 1, 0x0, [0xa], .one, [⟨0, 1, .rw, true, 0, 1⟩, ⟨1, 1, .rw, true, 0, 1⟩, ⟨2, 2, .rw, true, 0, 2⟩]⟩,
  ⟨0x04C, 1, 0x0, [0], .one, [⟨0, 32, .roh, false, 0, 4294967295⟩]⟩,
  ⟨0x050, 9, 0x4, [0], .one, [⟨0, 3, .roh, false, 0, 7⟩, ⟨3, 1, .roh, false, 0, 1⟩, ⟨4, 1, .roh, false, 0, 1⟩, ⟨8, 8, .roh, false, 0, 255⟩, ⟨16, 15, .roh, false, 0, 32767⟩]⟩,
  ⟨0x080, 9, 0x4, [0x50, 0x58, 0x59, 0x5a, 0x5b, 0x5c, 0x5d, 0x5e, 0x5f], .one, [⟨0, 7, .rw, true, 0, 127⟩]⟩,
  ⟨0x0C0, 1, 0x0, [0], .ind0, [⟨2, 30, .rw, false, 0, 1073741823⟩]⟩,
  ⟨0x0C4, 1, 0x0, [0], .ind1, []⟩,
  ⟨0x0C8, 1, 0x0, [1], .ind2, [⟨0, 1, .rw, false, 0, 1⟩, ⟨8, 8, .rw, false, 0, 255⟩]⟩,
  ⟨0x0CC, 1, 0x0, [0], .ind3, [⟨0, 4, .roh, false, 0, 15⟩]⟩]

/-- Words of the dram page class, part 1 of 1 (19_aggregator_chip.md R451). -/
def dramRegs : List RegSpec := [
  ⟨0x040, 1, 0x0, [0], .one, [⟨0, 1, .wo, false, 0, 1⟩]⟩,
  ⟨0x044, 1, 0x0, [0], .one, [⟨0, 8, .roh, false, 0, 255⟩, ⟨8, 1, .roh, false, 0, 1⟩, ⟨9, 2, .roh, false, 0, 3⟩]⟩,
  ⟨0x048, 1, 0x0, [0x2155], .one, [⟨0, 16, .roh, false, 0, 65535⟩]⟩,
  ⟨0x04C, 1, 0x0, [0], .one, [⟨0, 16, .roh, false, 0, 65535⟩]⟩,
  ⟨0x050, 8, 0x4, [0], .one, [⟨0, 32, .roh, false, 0, 4294967295⟩]⟩,
  ⟨0x070, 8, 0x4, [0], .one, [⟨0, 32, .roh, false, 0, 4294967295⟩]⟩,
  ⟨0x090, 1, 0x0, [0], .low, [⟨0, 32, .roh, false, 0, 4294967295⟩]⟩,
  ⟨0x094, 1, 0x0, [0], .high, [⟨0, 32, .roh, false, 0, 4294967295⟩]⟩,
  ⟨0x098, 1, 0x0, [0], .low, [⟨0, 32, .roh, false, 0, 4294967295⟩]⟩,
  ⟨0x09C, 1, 0x0, [0], .high, [⟨0, 32, .roh, false, 0, 4294967295⟩]⟩]


end Sys2Proof.Machine
end

