-- ==== Sys2Proof/Machine/Store.lean ====
section
/-! DEFINITION. The one store discipline of the model: sparse maps with a default, byte memories read and written
little-endian (R3), and the CRC-32 of R52. Every register file, header file and memory of State is one of these. -/

namespace Sys2Proof.Machine

/-- What key `k` reads as in `m`, where an unlisted key reads as `dflt`. -/
def sget {α : Type} (dflt : α) : SMap α → Nat → α
  | [], _ => dflt
  | (a, v) :: m, k => if k = a then v else if k < a then dflt else sget dflt m k

/-- `m` with key `k` set to `v`; setting the default removes the entry, so equal maps are equal lists. -/
def sput {α : Type} [DecidableEq α] (dflt : α) : SMap α → Nat → α → SMap α
  | [], k, v => if v = dflt then [] else [(k, v)]
  | (a, x) :: m, k, v =>
    if k < a then (if v = dflt then (a, x) :: m else (k, v) :: (a, x) :: m)
    else if k = a then (if v = dflt then m else (k, v) :: m)
    else (a, x) :: sput dflt m k v

/-- The canonical form: keys strictly rising above `lo`, no entry equal to its default. -/
def swfAbove {α : Type} [DecidableEq α] (dflt : Nat → α) : Option Nat → SMap α → Bool
  | _, [] => true
  | lo, (a, v) :: m => (match lo with | none => true | some l => decide (l < a)) && decide (v ≠ dflt a)
      && swfAbove dflt (some a) m

/-- The canonical form of a sparse map. -/
def swf {α : Type} [DecidableEq α] (dflt : Nat → α) (m : SMap α) : Bool := swfAbove dflt none m

/-- The canonical form of a byte memory. -/
def Mem.wf (m : Mem) : Bool := swf (fun _ => (0 : Byte)) m

/-- One byte. -/
def Mem.rd8 (m : Mem) (a : Nat) : Byte := sget (0 : Byte) m a

/-- One byte written. -/
def Mem.wr8 (m : Mem) (a : Nat) (b : Byte) : Mem := sput (0 : Byte) m a b

/-- `n` bytes from address `a`, lowest first. -/
def Mem.rdBytes (m : Mem) (a : Nat) : Nat → List Byte
  | 0 => []
  | n + 1 => Mem.rd8 m a :: Mem.rdBytes m (a + 1) n

/-- Bytes written from address `a` up. -/
def Mem.wrBytes (m : Mem) (a : Nat) : List Byte → Mem
  | [] => m
  | b :: bs => Mem.wrBytes (Mem.wr8 m a b) (a + 1) bs

/-- A little-endian list of bytes as a number (R3). -/
def leNat : List Byte → Nat
  | [] => 0
  | b :: bs => b.toNat + 256 * leNat bs

/-- The `n` little-endian bytes of a number (R3). -/
def leBytes : Nat → Nat → List Byte
  | 0, _ => []
  | n + 1, x => BitVec.ofNat 8 x :: leBytes n (x / 256)

/-- `n` bytes at `a` as a little-endian number (R3). -/
def Mem.rdLE (m : Mem) (a n : Nat) : Nat := leNat (Mem.rdBytes m a n)

/-- A number written as `n` little-endian bytes at `a` (R3). -/
def Mem.wrLE (m : Mem) (a n x : Nat) : Mem := Mem.wrBytes m a (leBytes n x)

/-- A 32-bit word of a memory. -/
def Mem.rd32 (m : Mem) (a : Nat) : W32 := BitVec.ofNat 32 (Mem.rdLE m a 4)

/-- A 32-bit word written. -/
def Mem.wr32 (m : Mem) (a : Nat) (w : W32) : Mem := Mem.wrLE m a 4 w.toNat

/-- One bit step of the reflected CRC-32 (R52; 0xEDB88320 is 0x04C11DB7 reflected). -/
def crcBit (c : Nat) : Nat := if c % 2 = 1 then (c / 2) ^^^ 0xEDB88320 else c / 2

/-- One byte of the CRC-32 (R52). -/
def crcByte (c : Nat) (b : Byte) : Nat :=
  crcBit (crcBit (crcBit (crcBit (crcBit (crcBit (crcBit (crcBit (c ^^^ b.toNat))))))))

/-- The CRC-32 of R52 over a list of bytes. -/
def crc32 (bs : List Byte) : W32 := BitVec.ofNat 32 ((bs.foldl crcByte 0xFFFFFFFF) ^^^ 0xFFFFFFFF)

/-- Bytes followed by their CRC-32, stored little-endian (R52). -/
def withCrc (bs : List Byte) : List Byte := bs ++ leBytes 4 (crc32 bs).toNat

/-- The first `n` elements, and zeros where there are fewer. -/
def padTo (n : Nat) (bs : List Byte) : List Byte := (bs ++ List.replicate n 0).take n

end Sys2Proof.Machine
end

