-- ==== Sys2Proof/Machine/Regs.lean ====
section
/-! DEFINITION. Register pages: page maps (R32, R33), slot arithmetic (R35), the register tables by class, and the
named reads and writes of one register word or field. Every register has one home, `Part.regs`, keyed by its byte
offset in the part's window; an unlisted word reads its reset value (R54). -/

namespace Sys2Proof.Machine

/-- The class of a die-unit page (R32); `none` is an unassigned page. -/
def dieClass (p : Nat) : Option PageClass :=
  if p = 0x000 then some .global else if p = 0x001 then some .headwater else if p = 0x002 then some .selftime
  else if p = 0x003 then some .bore else if 0x004 ≤ p ∧ p ≤ 0x007 then some .boreBar
  else if p = 0x008 then some .oxbow else if p = 0x009 then some .riffle else if p = 0x010 then some .eddy
  else if p = 0x018 then some .gauge else if 0x020 ≤ p ∧ p ≤ 0x029 then some .gaugeEng
  else if p = 0x030 then some .sluice else if p = 0x031 then some .trib else if p = 0x040 then some .spring
  else if p = 0x041 then some .ident else if 0x080 ≤ p ∧ p ≤ 0x0FF then some .rill
  else if 0x100 ≤ p ∧ p ≤ 0x13F then some .meanderCore else if p = 0x140 then some .meander else none

/-- The class of an aggregator page (R33). -/
def aggClass (p : Nat) : Option PageClass :=
  if p = 0x000 then some .aggGlobal else if p = 0x001 then some .confluence else if p = 0x002 then some .millrace
  else if p = 0x003 then some .levee else if p = 0x004 then some .estuary
  else if 0x008 ≤ p ∧ p ≤ 0x009 then some .eth else if 0x010 ≤ p ∧ p ≤ 0x01F then some .tribPort
  else if p = 0x020 then some .dram else if 0x040 ≤ p ∧ p ≤ 0x0BF then some .ring else none

/-- The class of a page of either part. -/
def pageClass (isAgg : Bool) (p : Nat) : Option PageClass := if isAgg then aggClass p else dieClass p

/-- Class codes of R31. -/
def classCode : PageClass → Nat
  | .global => 0x01 | .headwater => 0x02 | .selftime => 0x03 | .spring => 0x04 | .rill => 0x05 | .ident => 0x06
  | .riffle => 0x07 | .eddy => 0x08 | .gauge => 0x09 | .gaugeEng => 0x0A | .oxbow => 0x0B | .bore => 0x0C
  | .boreBar => 0x0D | .meander => 0x0E | .meanderCore => 0x0F | .sluice => 0x10 | .trib => 0x11
  | .aggGlobal => 0x20 | .confluence => 0x21 | .millrace => 0x22 | .levee => 0x23 | .estuary => 0x24
  | .ring => 0x25 | .eth => 0x26 | .tribPort => 0x27 | .dram => 0x28

/-- The instance number PAGE_ID shows (R32, R33). -/
def pageInst (isAgg : Bool) (p : Nat) : Nat :=
  match pageClass isAgg p with
  | some .boreBar => p - 0x004 | some .gaugeEng => p - 0x020 | some .rill => p - 0x080
  | some .meanderCore => p - 0x100 | some .eth => p - 0x008 | some .tribPort => p - 0x010
  | some .ring => p - 0x040 | _ => 0

/-- The block registers of a page (offsets from its slot for the classes of R35 that pack slots). TRIB_PORT repeats
the scheduler block of SLUICE; GLOBAL and AGG_GLOBAL hold the error summary words of R48. -/
def classRegs (p : Nat) : PageClass → List RegSpec
  | .global => ⟨0x040, 1, 0, [0xFFFFFFFF], .one, [⟨0, 32, .roh, false, 0, 0⟩]⟩ ::
      ⟨0x080, 32, 4, [0], .one, [⟨0, 32, .roh, false, 0, 0⟩]⟩ :: globalRegs
  | .aggGlobal => ⟨0x080, 128, 4, [0], .one, [⟨0, 32, .roh, false, 0, 0⟩]⟩ :: aggGlobalRegs
  | .headwater => headwaterRegs | .selftime => selftimeRegs | .spring => springRegs | .rill => rillRegs
  | .ident => identRegs | .riffle => riffleRegs | .eddy => eddyRegs | .gauge => gaugeRegs
  | .gaugeEng => gaugeEngRegs | .oxbow => oxbowRegs | .bore => boreRegs | .boreBar => boreBarRegs
  | .meander => meanderRegs | .meanderCore => meanderCoreRegs | .sluice => sluiceRegs ++ schedRegs
  | .trib => linkRegs | .tribPort => linkRegs ++ schedRegs
  | .confluence => confluenceRegs | .millrace => millraceRegs | .levee => leveeRegs | .estuary => estuaryRegs
  | .ring => if p < 0x080 then ringCmdRegs else ringCplRegs
  | .eth => ethRegs | .dram => dramRegs

/-- Slot size and count of a packed class (R35): RILL, GAUGE_ENG and BORE_BAR. -/
def slotShape : PageClass → Option (Nat × Nat)
  | .rill => some (0xC0, 16)
  | .gaugeEng => some (0x20, 64)
  | .boreBar => some (0x20, 64)
  | _ => none

/-- The offset within its register table of a block offset, and the slot it lies in (R35). -/
def slotOff (c : PageClass) (off : Nat) : Option (Nat × Nat) :=
  match slotShape c with
  | none => some (off, 0)
  | some (sz, n) =>
    if off < 0x040 then none
    else if (off - 0x040) / sz < n then some ((off - 0x040) % sz, (off - 0x040) / sz) else none

/-- The table row and array index of an offset. -/
def findSpec : List RegSpec → Nat → Option (RegSpec × Nat)
  | [], _ => none
  | r :: rs, o =>
    if o < r.off then findSpec rs o
    else if r.stride = 0 then (if o = r.off then some (r, 0) else findSpec rs o)
    else if (o - r.off) % r.stride = 0 ∧ (o - r.off) / r.stride < r.count then some (r, (o - r.off) / r.stride)
    else findSpec rs o

/-- The row of a block register word of a page, or `none` where no table of the page lists it (R34). -/
def specOf (isAgg : Bool) (page off : Nat) : Option (RegSpec × Nat) :=
  match pageClass isAgg page with
  | none => none
  | some c => match slotOff c off with
    | none => none
    | some (o, _) => findSpec (classRegs page c) o

/-- The reset value of a table row at an index. -/
def specReset (r : RegSpec) (i : Nat) : Nat :=
  match r.reset with
  | [] => 0
  | [v] => v
  | vs => vs.getD i 0

/-- The reset value of a register word (R54). The TRIB_PORT scheduler block resets to one entry of 125,000 ns with
OPEN 0xFF (table TRIB and TRIB_PORT pages). -/
def resetWord (isAgg : Bool) (addr : Nat) : W32 :=
  let page := addr / 0x1000
  let off := addr % 0x1000
  match specOf isAgg page off with
  | none => 0
  | some (r, i) =>
    if isAgg && (pageClass isAgg page == some .tribPort) && decide (0x100 ≤ off) then
      if off = 0x128 then 1 else if off = 0x12C then 0x100
      else if off = 0x200 ∨ off = 0x300 then 0xFF01E848 else if 0x200 ≤ off then 0
      else BitVec.ofNat 32 (specReset r i)
    else BitVec.ofNat 32 (specReset r i)

/-- A register word by its byte offset in the part's window. -/
def Part.rd (p : Part) (addr : Nat) : W32 := sget (resetWord p.isAgg addr) p.regs addr

/-- A register word set by hardware. -/
def Part.wr (p : Part) (addr : Nat) (w : W32) : Part :=
  { p with regs := sput (resetWord p.isAgg addr) p.regs addr w }

/-- A field of a register word. -/
def Part.fld (p : Part) (addr lo w : Nat) : Nat := bitsOf (p.rd addr).toNat lo w

/-- A field of a register word set by hardware. -/
def Part.setFld (p : Part) (addr lo w v : Nat) : Part := p.wr addr (withBits (p.rd addr) lo w v)

/-- A one-bit field. -/
def Part.bit (p : Part) (addr i : Nat) : Bool := p.fld addr i 1 == 1

/-- A one-bit field set by hardware. -/
def Part.setBit (p : Part) (addr i : Nat) (b : Bool) : Part := p.setFld addr i 1 (if b then 1 else 0)

/-- A register word as a number. -/
def Part.num (p : Part) (addr : Nat) : Nat := (p.rd addr).toNat

/-- A register word set to a number. -/
def Part.setNum (p : Part) (addr n : Nat) : Part := p.wr addr (BitVec.ofNat 32 n)

/-- A 64-bit register (R40: low word at the lower offset). -/
def Part.num64 (p : Part) (addr : Nat) : Nat := p.num addr + 4294967296 * p.num (addr + 4)

/-- A 64-bit register set by hardware. -/
def Part.setNum64 (p : Part) (addr n : Nat) : Part := (p.setNum addr n).setNum (addr + 4) (n / 4294967296)

/-- A saturating 32-bit count advanced by one (R10). -/
def Part.inc (p : Part) (addr : Nat) : Part := p.wr addr (satInc32 (p.rd addr))

/-- A saturating 32-bit count advanced by `n`. -/
def Part.incBy (p : Part) (addr n : Nat) : Part := p.wr addr (satAdd32 (p.rd addr) n)

/-- A wrapping 32-bit count advanced by `n`. -/
def Part.incWrap (p : Part) (addr n : Nat) : Part := p.setNum addr (p.num addr + n)

/-- A wrapping 64-bit count advanced by `n`. -/
def Part.inc64 (p : Part) (addr n : Nat) : Part := p.setNum64 addr ((p.num64 addr + n) % 18446744073709551616)

/-- A saturating 16-bit half of a word advanced by one. -/
def Part.incHalf (p : Part) (addr lo : Nat) : Part :=
  p.setFld addr lo 16 (min 0xFFFF (p.fld addr lo 16 + 1))

/-- Default and range of DEADLINE_NS by page class (R87, table Stage deadlines); `none`: the page has no deadline. -/
def deadlineRange : PageClass → Option (Nat × Nat × Nat)
  | .spring => some (1000, 500, 10000) | .riffle => some (2000, 500, 10000000)
  | .eddy => some (20000, 1000, 10000000) | .gauge => some (1000000, 100000, 10000000)
  | .gaugeEng => some (20000, 1000, 1000000) | .oxbow => some (2000, 500, 100000)
  | .bore => some (12, 12, 1000) | .boreBar => some (30, 30, 1000) | .meanderCore => some (50000, 1000, 10000000)
  | .sluice => some (1000, 100, 1000000) | .trib => some (12000, 1000, 100000)
  | .ident => some (100000000, 1000000, 1000000000) | .confluence => some (20000, 5000, 1000000)
  | .estuary => some (10000, 1000, 1000000) | .levee => some (5000, 1000, 5000)
  | _ => none

/-- The header a page has at reset (R37, R54). -/
def resetHdr (isAgg : Bool) (page : Nat) : PageHdr :=
  match pageClass isAgg page with
  | none => {}
  | some c => match deadlineRange c with
    | none => {}
    | some (d, _, _) => { deadline := BitVec.ofNat 32 d }

/-- The header of a page. -/
def Part.hdr (p : Part) (page : Nat) : PageHdr := sget (resetHdr p.isAgg page) p.hdrs page

/-- The header of a page set. -/
def Part.setHdr (p : Part) (page : Nat) (h : PageHdr) : Part :=
  { p with hdrs := sput (resetHdr p.isAgg page) p.hdrs page h }

/-- The header of a page changed. -/
def Part.modHdr (p : Part) (page : Nat) (f : PageHdr → PageHdr) : Part := p.setHdr page (f (p.hdr page))

/-- The state of a page (R41). -/
def Part.pstate (p : Part) (page : Nat) : PState := (p.hdr page).state

/-- Whether a page is ACTIVE. -/
def Part.active (p : Part) (page : Nat) : Bool := p.pstate page == .active

/-- One more completed operation of a page's main kind (EVENT_COUNT wraps). -/
def Part.event (p : Part) (page : Nat) : Part := p.modHdr page fun h => { h with eventCount := h.eventCount + 1 }

/-- The part's Headwater time in whole ns. -/
def Part.now (p : Part) : Nat := p.time.ns

/-- Time carried forward to a stated instant, if it lies ahead (the event that names the instant has come). -/
def Part.reach (p : Part) (ns : Nat) : Part :=
  if p.now < ns then { p with time := Time.ofNs ns, captured := [] } else p

/-- The part's Headwater time in 2⁻³² ns. -/
def Part.t (p : Part) : Nat := p.time.toNat

/-- As `Part.reach`, to an instant in 2⁻³² ns. -/
def Part.reachAt (p : Part) (t : Nat) : Part := if p.t < t then { p with time := BitVec.ofNat 96 t, captured := [] } else p

/-- A free 32-bit value drawn (log entry 5). -/
def Part.draw32 (p : Part) : W32 × Part := (Config.free32 p.fresh, { p with fresh := p.fresh + 1 })

/-- A free choice drawn (log entry 5). -/
def Part.drawBool (p : Part) : Bool × Part := (Config.freeBool p.fresh, { p with fresh := p.fresh + 1 })

end Sys2Proof.Machine
end

