-- ==== Sys2Proof/Machine/Ops.lean ====
section
/-! DEFINITION. The operations every page shares: the health record and its encoding (R51–R53), raising an error
(R44–R46), injections (R47), the deadline model (R86–R93), and page faults (R41). -/

namespace Sys2Proof.Machine

/-- Bit `i` of a word. -/
def wbit (w : W32) (i : Nat) : Bool := w.toNat.testBit i

/-- The encoding of a health record (R51): 64 bytes, CRC last (R52). -/
def HealthRec.bytes (r : HealthRec) : List Byte :=
  withCrc (leBytes 4 r.gdid ++ leBytes 1 0x03 ++
    leBytes 1 ((if r.provisional then 1 else 0) + (if r.unsynced then 2 else 0) + (if r.late then 4 else 0)
      + (if r.injected then 8 else 0) + (if r.aggSource then 16 else 0)) ++
    leBytes 2 r.unit ++ leBytes 1 r.cls ++ leBytes 1 (r.op % 8 + 8 * (r.level % 4) + 32 * (r.verdict % 4)) ++
    leBytes 2 r.code ++ leBytes 2 r.opCode ++ leBytes 2 r.temp.toNat ++ leBytes 2 r.volt.toNat ++
    leBytes 1 r.load ++ leBytes 1 r.seq ++ leBytes 4 r.window ++ leBytes 8 r.time ++ leBytes 4 r.step ++
    padTo 20 r.detail ++ leBytes 2 r.partition ++ [0, 0])

/-- GLOBAL_GDID of a die, or the provisional ID while none is assigned (R394, R396); the tree node identifier of the
aggregator (CONFLUENCE NODE_ID). -/
def Part.gdid (p : Part) : Nat :=
  if p.isAgg then p.num 0x1048
  else if p.num 0x40 = 0xFFFFFFFF then 0xFFFE0000 + p.slot else p.num 0x40

/-- Whether the die reports under its provisional ID (R51). -/
def Part.provisional (p : Part) : Bool := !p.isAgg && decide (p.num 0x40 = 0xFFFFFFFF)

/-- The value of a temperature point, 0x8000 when invalid (R105, R418). -/
def Part.tempAt (p : Part) (i : Nat) : W16 :=
  let h := sget {} p.hpIn i
  if h.valid then h.val else 0x8000

/-- The value of a voltage point, 0 when invalid (R105, R418). -/
def Part.voltAt (p : Part) (i : Nat) : W16 :=
  let h := sget {} p.hpIn i
  if h.valid then h.val else 0

/-- The highest observation level among the engines of the die (step-record COND, R290; used for records that concern
no engine, log entry 9). -/
def Part.topLevel (p : Part) : Nat :=
  p.regs.foldl (fun m e =>
    if 0x20000 ≤ e.1 ∧ e.1 < 0x2A000 ∧ 0x40 ≤ e.1 % 0x1000 ∧ e.1 % 0x20 = 4 then max m (e.2.toNat % 4) else m) 0

/-- The number of the step running (R51): one above the last accepted marker, all ones before the first (log entry 10). -/
def Part.curStep (p : Part) : Nat :=
  if p.num 0x40054 = 0xFFFFFFFF then 0xFFFFFFFF else p.num 0x40054 + 1

/-- WINDOW_INDEX of a record (R51): the open window, or the one the schedule puts an earlier time in (log entry 172). -/
def Part.windowAt (p : Part) (time : Option Nat) : Nat :=
  let cur := p.num64 0x10B0
  match time with
  | none => cur % 4294967296
  | some t =>
    let b := p.num64 0x10A0
    let n := p.num64 0x10BC
    min cur (if t < b then n - 1 else n + (t - b) / max 1 (p.num 0x1098)) % 4294967296

/-- LOAD of a record for which the model knows no occupancy (R51): a free value of 0–200 or 0xFF, since how full a unit's
slots are comes from outside (log entry 177). -/
def freeLoad (n : Nat) : Nat :=
  let x := (Config.free32 n).toNat % 202
  if x = 201 then 0xFF else x

/-- One health record of a page (R51), emitted with the page's next SEQ. -/
def Part.report (p : Part) (path : RecPath) (page code : Nat) (a : RepArgs) : Part :=
  let h := p.hdr page
  let cls := match pageClass p.isAgg page with | some c => classCode c | none => 0
  let r : HealthRec :=
    { gdid := p.gdid, provisional := p.provisional, unsynced := p.disc.unsynced, late := a.late
      injected := a.injected, aggSource := p.isAgg, unit := a.unit, cls := cls
      op := match a.op with | some o => o | none => if p.isAgg then 0 else p.fld 0x100 0 3
      level := match a.level with | some l => l | none => if p.isAgg then 0 else p.topLevel
      verdict := a.verdict, code := cls * 256 + code, opCode := a.opCode
      temp := match a.cond with
        | some c => c.1 | none => if p.isAgg then BitVec.ofNat 16 (p.num 0x60) else p.tempAt 0
      volt := match a.cond with
        | some c => c.2 | none => if p.isAgg then BitVec.ofNat 16 (p.num 0x64) else p.voltAt 128
      load := match a.load with | some n => n | none => freeLoad p.fresh
      seq := h.seq.toNat
      window := if p.isAgg then (Config.free32 (p.fresh + 1)).toNat else p.windowAt a.time
      time := match a.time with | some t => t | none => p.now
      step := match a.step with
        | some n => n | none => if p.isAgg then 0xFFFFFFFF else p.curStep
      detail := a.detail
      partition := if p.isAgg then 0xFFFF else p.fld 0x3048 0 16 }
  let p := p.setHdr page { h with seq := h.seq + 1 }
  { p with emitted := p.emitted ++ [(path, r)], fresh := p.fresh + 2 }

/-- An ERR_STAT bit set (R46): ERR_FIRST is captured when ERR_STAT was zero, and of the bits one cycle sets the lowest is
captured. The bits that one command sets without time moving are those of one cycle (log entry 176). -/
def Part.setErr (p : Part) (page bit unit : Nat) : Part :=
  let h := p.hdr page
  let first := decide (h.errStat = 0)
  let p := p.setHdr page
    { h with
      errStat := h.errStat ||| BitVec.ofNat 32 (2 ^ bit)
      first := if first || (p.captured.contains page && decide (bit < h.first.bit)) then ⟨bit, unit, true⟩ else h.first }
  if first then { p with captured := page :: p.captured } else p

/-- The detail code of an ERR_STAT bit: bits 0–7 are details 0x01–0x08, bits 16 up are details 0x10 up (R53, R460). -/
def detailOf (bit : Nat) : Nat := if bit < 16 then bit + 1 else bit

/-- An error raised under R44: the bit is set, and one record goes out (S2 on a die, the aggregator's path there)
when the bit was clear and is not masked (R45). -/
def Part.raise (p : Part) (page bit : Nat) (a : RepArgs) : Part :=
  let h := p.hdr page
  let p' := p.setErr page bit (a.mem.getD a.unit)
  if wbit h.errStat bit || wbit h.errMask bit then p'
  else p'.report (if p.isAgg then .agg else .s2) page (detailOf bit) a

/-- An error that emits one record for every occurrence (paths S1 and AE, R456); only ERR_MASK suppresses it (R45). -/
def Part.raiseEach (p : Part) (page bit : Nat) (a : RepArgs) : Part :=
  let h := p.hdr page
  let p' := p.setErr page bit (a.mem.getD a.unit)
  if wbit h.errMask bit then p'
  else p'.report (if p.isAgg then .agg else .s1) page (detailOf bit) a

/-- Whether an injection of the common error at `bit` is armed (R47). -/
def Part.armedAt (p : Part) (page bit : Nat) : Bool := (p.hdr page).armed.toNat.testBit bit

/-- Taking an injection of the common error at `bit`, where one is armed, clears ARMED (R47). -/
def Part.takeInject (p : Part) (page bit : Nat) : Bool × Part :=
  if p.armedAt page bit then
    (true, p.modHdr page fun h => { h with armed := h.armed &&& ~~~(BitVec.ofNat 8 (2 ^ bit)) })
  else (false, p)

/-- ACCESS_ERR of a page (R34, R38): detail 0x01 with the window offset, the data and the direction; `op` is OP_CODE. An
armed injection is spent (R47). -/
def Part.accessErrOp (p : Part) (page addr : Nat) (data : W32) (write : Bool) (op : Nat) : Part :=
  let (inj, p) := p.takeInject page 0
  { p.raise page 0
      { opCode := op, injected := inj, detail := leBytes 4 addr ++ leBytes 4 data.toNat ++ [if write then 1 else 0] } with
    accessed := true }

/-- ACCESS_ERR of a page, with no operation attributed. -/
def Part.accessErr (p : Part) (page addr : Nat) (data : W32) (write : Bool) : Part := p.accessErrOp page addr data write 0

/-- Whether an armed ACCESS_ERR turns an access of a page away (R47): the access is one that ACCESS_ERR applies to, of a
block register, or a write of ERR_MASK, ERR_INJECT or DEADLINE_NS (log entry 178). -/
def Part.accessFault (p : Part) (page off : Nat) (write : Bool) : Bool :=
  p.armedAt page 0 && (decide (0x40 ≤ off) || (write && (off == 0x10 || off == 0x14 || off == 0x1C)))

/-- The code of a page state (R37). -/
def pstateCode : PState → Nat
  | .off => 0 | .enabling => 1 | .active => 2 | .draining => 3 | .faulted => 4

/-- CMD_ERR of a page (R41): detail 0x07 with the value written and the state at the write; `op` is OP_CODE. An armed
injection is spent (R47). -/
def Part.cmdErrOp (p : Part) (page data op : Nat) : Part :=
  let (inj, p) := p.takeInject page 6
  p.raise page 6 { opCode := op, injected := inj, detail := leBytes 4 data ++ leBytes 1 (pstateCode (p.pstate page)) }

/-- CMD_ERR of a page, with no operation attributed. -/
def Part.cmdErr (p : Part) (page data : Nat) : Part := p.cmdErrOp page data 0

/-- The page-fault input of R41 with the causing detail; FAULTED emits one record of detail 0x09. -/
def Part.pageFault (p : Part) (page cause : Nat) : Part :=
  match p.pstate page with
  | .off => p
  | .faulted => p
  | _ =>
    (p.modHdr page fun h => { h with state := .faulted, enablePending := false }).report
      (if p.isAgg then .agg else .s2) page 0x09 { detail := leBytes 1 cause }

/-- A corrected or uncorrectable read of a protected memory (R44, R49, R53): CE or UE of the page, and the check
result after any armed injection (R47). -/
def Part.eccRead (p : Part) (page word mem : Nat) (e : Ecc) (opCode : Nat) : Ecc × Part :=
  let (i2, p) := p.takeInject page 2
  let (i3, p) := p.takeInject page 3
  let e' := if i3 then Ecc.ue else if i2 then (match e with | .ok => .ce 1 | x => x) else e
  match e' with
  | .ok => (.ok, p)
  | .ce n => (.ce n, p.raise page 2
      { opCode := opCode, injected := i2, mem := some mem, detail := leBytes 4 word ++ leBytes 1 mem ++ leBytes 1 n })
  | .ue => (.ue, p.raise page 3
      { opCode := opCode, injected := i3, mem := some mem, detail := leBytes 4 word ++ leBytes 1 mem ++ leBytes 1 0xFF })

/-! ### Deadlines -/

/-- The deadline register of a stage: DEADLINE_NS for stage 0, the block register otherwise (R87, R93). -/
def Part.stageDeadline (p : Part) (page stage : Nat) : Nat :=
  if stage = 0 then (p.hdr page).deadline.toNat
  else if p.isAgg then
    (if page = 1 then (if stage = 1 then p.num 0x1054 else p.num 0x1058) else if page = 3 then p.num 0x3048 else 0)
  else if page = 0x40 then p.num 0x40044 else 0

/-- A stage item begins (R86): it keeps the deadline in force; an armed LATE injection gives it a deadline of 0 (R47). -/
def Part.stageStart (p : Part) (page stage unit op start : Nat) : Part :=
  let (inj, p) := p.takeInject page 1
  { p with stages := p.stages ++
      [{ page := page, stage := stage, unit := unit, op := op, start := start
         frac := if start = p.now then p.time.toNat % 4294967296 else 0
         deadline := if inj then 0 else p.stageDeadline page stage, injected := inj }] }

/-- The monitor that measures a page's stage (table Stage-period monitors; log entry 11), as a MON index. DESIGN CHOICE:
where the table lists several for one page with no unit to tell them apart, the first. -/
def monitorOf (page unit : Nat) : Option Nat :=
  if page = 0x40 then some 0 else if page = 0x09 then some 2 else if page = 0x10 then some (4 + min 7 (unit / 2))
  else if page = 0x18 then some 14 else if page = 0x08 then some 15 else if page = 0x03 then some 16
  else if 0x100 ≤ page ∧ page < 0x120 then some 19 else if 0x120 ≤ page ∧ page < 0x140 then some 20
  else if page = 0x30 then some 21 else if page = 0x31 then some 25 else none

/-- LEVEL of a LATE record (R93). -/
def Part.lateLevel (p : Part) (page stage : Nat) : Nat :=
  if !p.isAgg then 0 else if page = 1 then (if stage = 0 then 1 else if stage = 1 then 2 else 3)
  else if page = 4 then 4 else 0

/-- A LATE record (R91, R93): `hang`, `summary` and `pending` are its FLAGS bits 0–2. Its time is the deadline instant, and
the time of detection for a hang (R51). -/
def Part.lateRecord (p : Part) (page : Nat) (i : LateItem) (lateness misses : Nat) (hang summary pending : Bool) :
    Part :=
  let h := p.hdr page
  let cls := match pageClass p.isAgg page with | some c => classCode c | none => 0
  let period := if p.isAgg then 0 else match monitorOf page i.unit with
    | some m => p.fld (0x2080 + 4 * m) 0 16 | none => 0
  if wbit h.errMask 1 then p
  else p.report (if p.isAgg then .agg else .s2) page 0x02
    { unit := i.unit, opCode := i.op, injected := i.injected, time := if hang then none else some (i.start + i.deadline)
      detail := leBytes 4 i.deadline ++ leBytes 4 (min lateness 0xFFFFFFFF) ++ leBytes 4 i.start ++
        leBytes 2 (cls * 256 + i.stage) ++ leBytes 2 (min misses 0xFFFF) ++
        leBytes 1 (p.lateLevel page i.stage) ++
        leBytes 1 ((if hang then 1 else 0) + (if summary then 2 else 0) + (if pending then 4 else 0)) ++
        leBytes 2 period }

/-- Time since an instant of `ns` and `frac` 2⁻³² ns, in 1/16 ns (R93). -/
def Part.since16 (p : Part) (ns frac : Nat) : Nat := (p.time.toNat - (ns * 4294967296 + frac)) / 268435456

/-- The late item a stage item becomes. -/
def StageItem.lateItem (i : StageItem) : LateItem :=
  { unit := i.unit, op := i.op, stage := i.stage, start := i.start, frac := i.frac, deadline := i.deadline
    injected := i.injected }

/-- A deadline miss (R89, R91): LATE_COUNT advances, ERR_STAT.LATE is set, and the miss is the window's first, whose record
waits for its delivery, or one more for the summary. -/
def Part.noteMiss (p : Part) (page : Nat) (i : LateItem) : Part :=
  let p := p.setErr page 1 i.unit
  p.modHdr page fun h =>
    if h.lateSeen then { h with lateCount := satInc32 h.lateCount, lateMore := h.lateMore + 1, lateLast := some i }
    else { h with lateCount := satInc32 h.lateCount, lateSeen := true, lateFirsts := h.lateFirsts ++ [i] }

/-- Whether a stage item is the one named. A window that Eddy scores lies in all its lanes, so any lane names it. -/
def StageItem.named (i : StageItem) (page stage unit : Nat) : Bool :=
  i.page == page && i.stage == stage && (i.unit == unit || page == 0x10)

/-- The first element of a list that meets a test, changed. -/
def changeFirst {α : Type} (t : α → Bool) (f : α → α) : List α → List α
  | [] => []
  | x :: xs => if t x then f x :: xs else x :: changeFirst t f xs

/-- The first stage item named (R90: items are delivered in input order). -/
def Part.stageFind (p : Part) (page stage unit : Nat) : Option StageItem :=
  p.stages.find? fun i => i.named page stage unit

/-- A stage item leaves without being delivered late or at all (withdrawn, held or discarded). -/
def Part.stageDrop (p : Part) (page stage unit : Nat) : Part :=
  match p.stageFind page stage unit with
  | none => p
  | some i => { p with stages := p.stages.erase i }

/-- The first named stage item marked missed, at its deadline instant (R89); it takes the unit that is late (R93). -/
def Part.stageMiss (p : Part) (page stage unit : Nat) : Part :=
  let open_ (i : StageItem) : Bool := i.named page stage unit && !i.missed
  match p.stages.find? open_ with
  | none => p
  | some i =>
    ({ p with stages := changeFirst open_ (fun x => { x with missed := true, unit := unit }) p.stages }).noteMiss page
      { i with unit := unit }.lateItem

/-- The late result of an item is delivered: the page's first miss of the window emits its record now, and the last
of the others keeps its lateness, in 1/16 ns, for the summary (R91). -/
def Part.lateDelivered (p : Part) (page : Nat) (i : LateItem) (l : Nat) : Part :=
  let h := p.hdr page
  if h.lateFirsts.contains i then
    (p.modHdr page fun h => { h with lateFirsts := h.lateFirsts.erase i }).lateRecord page i l 1 false false false
  else if h.lateLast = some i then
    p.modHdr page fun h => { h with lateLast := some { i with lateness := some l } }
  else p

/-- The unit a late item names (R93): its own, or for a window of Eddy whose miss no command has named a free lane, since
the lane that ended last is not known (log entry 179). -/
def Part.lateUnit (p : Part) (i : StageItem) : Nat :=
  if i.page = 0x10 ∧ !p.isAgg ∧ !i.missed then (Config.free32 p.fresh).toNat % 16 else i.unit

/-- A stage item is delivered (R86, R89): it leaves, and the answer says whether it was late. A deadline already
passed counts as missed before the delivery; so does an injected deadline of 0, which every delivery passes (R47). -/
def Part.itemDone (p : Part) (i : StageItem) : Bool × Part :=
  let p' := { p with stages := p.stages.erase i }
  let l := p.since16 (i.start + i.deadline) i.frac
  let x := { i with unit := p.lateUnit i }.lateItem
  if i.missed then (true, p'.lateDelivered i.page x l)
  else if i.injected || decide ((i.start + i.deadline) * 4294967296 + i.frac < p.time.toNat) then
    (true, ({ p' with fresh := p'.fresh + 1 }.noteMiss i.page x).lateDelivered i.page x l)
  else (false, p')

/-- The first named stage item is delivered. -/
def Part.stageDone (p : Part) (page stage unit : Nat) : Bool × Part :=
  match p.stageFind page stage unit with
  | none => (false, p)
  | some i => p.itemDone i

/-- The first named stage item is abandoned before its deadline or after (R190): it counts as a miss of its deadline now, if
it has not been one yet. -/
def Part.itemLost (p : Part) (i : StageItem) : Part :=
  let p' := { p with stages := p.stages.erase i }
  let p' := if i.missed then p' else p'.noteMiss i.page i.lateItem
  p'.lateDelivered i.page i.lateItem (p.since16 (i.start + i.deadline) i.frac)

/-- A page's late account at a window boundary (R91): further misses give one summary record, PENDING while the last
of them is not delivered. -/
def Part.lateSummary (p : Part) (page : Nat) : Part :=
  let h := p.hdr page
  let p' := p.modHdr page fun h => { h with lateSeen := false, lateMore := 0, lateLast := none }
  match h.lateLast with
  | none => p'
  | some i => match i.lateness with
    | some l => p'.lateRecord page i l h.lateMore false true false
    | none => p'.lateRecord page i (p.since16 (i.start + i.deadline) i.frac) h.lateMore false true true

/-- Every page's late account at a window boundary (R91). -/
def Part.lateSummaries (p : Part) : Part :=
  p.hdrs.foldl (fun q e => if e.2.lateSeen then q.lateSummary e.1 else q) p

/-- A hung stage (R92): a LATE record with HANG, and the page faults with cause 0x02. -/
def Part.stageHang (p : Part) (page stage unit : Nat) : Part :=
  match p.stageFind page stage unit with
  | none => p
  | some i => ((p.lateRecord page i.lateItem 0xFFFFFFFF 1 true false false).pageFault page 0x02)

/-! ### Page commands (R38–R47) -/

/-- SOFT_CLEAR of the common header (R39): ERR_STAT, ERR_FIRST, LATE_COUNT, EVENT_COUNT and any armed injection (R47). -/
def Part.softClearHdr (p : Part) (page : Nat) : Part :=
  p.modHdr page fun h =>
    { h with errStat := 0, first := {}, lateCount := 0, eventCount := 0, armed := 0 }

/-- A W1C write of ERR_STAT (R46): ones clear bits; a zero result re-arms ERR_FIRST. -/
def Part.clearErr (p : Part) (page : Nat) (w : W32) : Part :=
  p.modHdr page fun h =>
    let e := h.errStat &&& ~~~w
    { h with errStat := e, first := if e = 0 then { h.first with valid := false } else h.first }

/-- Several register words zeroed (the block statistics a SOFT_CLEAR names, R39). -/
def Part.zero (p : Part) (addrs : List Nat) : Part := addrs.foldl (fun q a => q.wr a 0) p

/-- The addresses of an array of `n` words. -/
def arr (base stride n : Nat) : List Nat := (List.range n).map fun i => base + stride * i

end Sys2Proof.Machine
end

