-- ==== Sys2Proof/Machine/Sluice.lean ====
section
/-! DEFINITION. Sluice and one end of a Tributary lane (chapter 12): the one-pass compressor (R266–R269), record
acceptance (R267), the strict queues and their admission (R278), the deficit scheduler and its gates (R279–R285), and
the link states (R276). `lane` is `none` on a die (pages SLUICE and TRIB) and the lane number at the aggregator (its
TRIB_PORT page). -/

namespace Sys2Proof.Machine

/-- The page of the link registers (R288). -/
def linkPage : Option Nat → Nat
  | none => 0x31
  | some l => 0x10 + l

/-- The byte offset of the link registers' page. -/
def linkBase (lane : Option Nat) : Nat := linkPage lane * 0x1000

/-- The byte offset of the page with the scheduler block (R287). -/
def schedBase : Option Nat → Nat
  | none => 0x30000
  | some l => (0x10 + l) * 0x1000

/-! ### Compression -/

/-- Bytes of `xs` at `i` up to `n`. -/
def slice (xs : List Byte) (i n : Nat) : List Byte := (xs.drop i).take n

/-- The literal tokens of a run (R269): runs of at most 128 bytes, each preceded by its length less one. -/
def litTokens : Nat → List Byte → List Byte
  | 0, _ => []
  | f + 1, xs =>
    if xs.isEmpty then [] else
      BitVec.ofNat 8 ((xs.take 128).length - 1) :: xs.take 128 ++ litTokens f (xs.drop 128)

/-- The match token of an offset (1–4,096) and a length (4–266) (R269). -/
def matchToken (off len : Nat) : List Byte :=
  if len ≤ 10 then [BitVec.ofNat 8 (0x80 + (len - 4) * 16 + (off - 1) / 256), BitVec.ofNat 8 (off - 1)]
  else [BitVec.ofNat 8 (0xF0 + (off - 1) / 256), BitVec.ofNat 8 (off - 1), BitVec.ofNat 8 (len - 11)]

/-- How far two positions of a record agree, up to `n` bytes. -/
def agree : Nat → List Byte → List Byte → Nat
  | n + 1, a :: as, b :: bs => if a = b then agree n as bs + 1 else 0
  | _, _, _ => 0

/-- The hash of R268's encoder: bits [31:20] of the product. -/
def hash12 (w : Nat) : Nat := (w * 0x9E3779B1) % 4294967296 / 1048576

/-- The encoder of R268 from position `pos` with the pending literals `lit` and the table of positions; `f` bounds
the positions left. -/
def encodeFrom (xs : List Byte) (n : Nat) : Nat → Nat → List Byte → SMap (Option Nat) → List Byte
  | 0, _, lit, _ => litTokens (lit.length + 1) lit
  | f + 1, pos, lit, tbl =>
    if n ≤ pos then litTokens (lit.length + 1) lit
    else if pos + 4 ≤ n then
      let h := hash12 (leNat (slice xs pos 4))
      let tbl' := sput none tbl h (some pos)
      match sget none tbl h with
      | some c =>
        if pos - c ≤ 4096 ∧ slice xs c 4 = slice xs pos 4 then
          let len := min 266 (agree (min 266 (n - pos)) (xs.drop c) (xs.drop pos))
          litTokens (lit.length + 1) lit ++ matchToken (pos - c) len ++ encodeFrom xs n f (pos + len) [] tbl'
        else encodeFrom xs n f (pos + 1) (lit ++ slice xs pos 1) tbl'
      | none => encodeFrom xs n f (pos + 1) (lit ++ slice xs pos 1) tbl'
    else encodeFrom xs n f (pos + 1) (lit ++ slice xs pos 1) tbl

/-- The Sluice block of a record (R269): header, then tokens. -/
def encodeBlock (xs : List Byte) : List Byte :=
  [1, 0, 0, 0] ++ leBytes 4 xs.length ++ leBytes 4 (crc32 xs).toNat ++ encodeFrom xs xs.length xs.length 0 [] []

/-- The decoder of R269's token stream: output so far, tokens left; `none` is a rejected block. -/
def decodeTokens (rawLen : Nat) : Nat → List Byte → List Byte → Option (List Byte)
  | 0, _, _ => none
  | f + 1, out, ts =>
    if out.length = rawLen then (if ts.isEmpty then some out else none)
    else match ts with
    | [] => none
    | t :: ts =>
      if t.toNat < 128 then
        let n := t.toNat + 1
        if ts.length < n ∨ rawLen < out.length + n then none else decodeTokens rawLen f (out ++ ts.take n) (ts.drop n)
      else match ts with
      | [] => none
      | lo :: ts =>
        let off := (t.toNat % 16) * 256 + lo.toNat + 1
        let long := (t.toNat / 16) % 8 == 7
        match (if long then (match ts with | x :: r => some (11 + x.toNat, r) | [] => none)
               else some ((t.toNat / 16) % 8 + 4, ts)) with
        | none => none
        | some (len, rest) =>
          if out.length < off ∨ rawLen < out.length + len then none
          else decodeTokens rawLen f
            ((List.range len).foldl (fun o _ => o ++ [o.getD (o.length - off) 0]) out) rest

/-- A Sluice block decoded, or rejected for any case of R269. -/
def decodeBlock (b : List Byte) : Option (List Byte) :=
  if b.length < 12 then none
  else if b.getD 0 0 ≠ 1 ∨ slice b 1 3 ≠ [0, 0, 0] then none
  else
    let n := leNat (slice b 4 4)
    if n = 0 ∨ 65536 < n then none
    else match decodeTokens n (b.length + 1) [] (b.drop 12) with
    | none => none
    | some xs => if (crc32 xs).toNat = leNat (slice b 8 4) then some xs else none

/-! ### Queues -/

/-- The cells of queue `q` (0–2 are S0–S2, 3–10 are W0–W7). -/
def Port.queue (s : Port) (q : Nat) : List Cell := sget [] s.queues q

/-- Queue `q` set. -/
def Port.setQueue (s : Port) (q : Nat) (cs : List Cell) : Port := { s with queues := sput [] s.queues q cs }

/-- A time payload (table Cell types): a stamp in 2⁻¹⁶ ns and a residence. -/
def timePayload (exch stamp resid : Nat) : List Byte :=
  leBytes 4 exch ++ leBytes 2 stamp ++ [0, 0] ++ leBytes 8 (stamp / 65536) ++ leBytes 4 resid ++ [0, 0, 0, 0]

/-- The 32-byte event body (R223). -/
def BoreEvent.bytes (e : BoreEvent) : List Byte :=
  leBytes 1 e.typ ++ leBytes 1 e.qual ++ leBytes 1 e.scope ++ leBytes 1 e.rsv ++ leBytes 2 e.partition ++ leBytes 2 e.seq ++
    leBytes 4 e.source ++ leBytes 4 e.dest ++ leBytes 8 e.exec ++ leBytes 4 e.arg0 ++ leBytes 4 e.arg1

/-- The payload of a cell (table Cell types); `resid` is the residence the transmit logic writes into a time cell (R273). -/
def Cell.payload (c : Cell) (resid : Nat) : List Byte :=
  match c.body with
  | .health r => r.bytes
  | .part rc off => slice (if c.compressed then encodeBlock rc.bytes else rc.bytes) off c.len
  | .timeSync x t => timePayload x t resid
  | .timeDelay x t => timePayload x t resid
  | .timeResp x t => timePayload x t 0
  | .note e time status => e.bytes ++ leBytes 8 time ++ leBytes 1 status ++ [0, 0, 0, 0, 0, 0, 0]
  | .regReq id op n addr ws =>
    leBytes 2 id ++ leBytes 1 op ++ leBytes 1 n ++ leBytes 4 addr ++ (ws.map fun w => leBytes 4 w.toNat).flatten
  | .regResp id st n ws => leBytes 2 id ++ leBytes 1 st ++ leBytes 1 n ++ (ws.map fun w => leBytes 4 w.toNat).flatten
  | .bulk id target last off bs => leBytes 2 id ++ leBytes 1 target ++ leBytes 1 (b2n last) ++ leBytes 4 off ++ bs
  | .bulkAck id st off => leBytes 2 id ++ leBytes 1 st ++ [0] ++ leBytes 4 off
  | .dispute tag unit => leBytes 2 tag ++ leBytes 2 unit ++ [0, 0, 0, 0]
  | .selftestReq e tag => leBytes 2 e ++ leBytes 2 tag ++ [0, 0, 0, 0]

/-- A cell as it crosses the lane (R271): header, payload and CRC-32. -/
def Cell.frame (c : Cell) (q cseq resid : Nat) : List Byte :=
  withCrc (leBytes 1 c.typ ++ leBytes 1 q ++ leBytes 2 c.len ++
    leBytes 1 (b2n c.first + 2 * b2n c.last + 4 * b2n c.compressed + 8 * b2n c.late) ++ [0] ++ leBytes 2 cseq ++
    c.payload resid)

/-- The payload of a TRAIN cell (table Cell types). -/
def trainPayload (role port id : Nat) : List Byte := leBytes 1 role ++ [1] ++ leBytes 1 port ++ [0] ++ leBytes 4 id

/-- Cell bytes: header 8, payload, CRC 4 (R277). -/
def Cell.bytes (c : Cell) : Nat := c.len + 12

/-- Cell bytes of a queue (DEPTH, R277). -/
def Port.depth (s : Port) (q : Nat) : Nat := ((s.queue q).map Cell.bytes).sum

/-- Cell bytes that jobs in flight have reserved in a queue (R266, R277). -/
def Port.reserved (s : Port) (q : Nat) : Nat := ((s.jobs.filter fun j => j.queue == q).map CompJob.reserved).sum

/-- Cell bytes a record or reservation of `n` bytes takes (R277): its bytes and 12 per cell. -/
def cellBytes (n : Nat) : Nat := n + 12 * max 1 ((n + 2047) / 2048)

/-- Whether a weighted queue has room for `n` more cell bytes (R277: 64 KiB). -/
def Port.room (s : Port) (q n : Nat) : Bool := decide (s.depth q + s.reserved q + n ≤ 65536)

/-- The cells of a record of `n` payload bytes (R272). -/
def splitCells (rc : Rec) (n : Nat) (comp late : Bool) (enq : Nat) : List Cell :=
  let k := max 1 ((n + 2047) / 2048)
  (List.range k).map fun i =>
    { typ := 1, len := min 2048 (n - 2048 * i), first := i == 0, last := i + 1 == k
      compressed := comp, late := late, body := .part rc (2048 * i), enq := enq }

/-- The queue SLUICE_QMAP names for a kind (R280). -/
def qmapIndex : RecKind → Nat
  | .step => 0 | .window => 1 | .snapshot => 2 | .response => 3 | .trace => 4 | .raw => 5

/-- The weighted queue of a kind of upstream record, as a queue number 3–10 (R280). -/
def Part.qOf (p : Part) (k : RecKind) : Nat := 3 + p.fld 0x30064 (3 * qmapIndex k) 3

/-- Whether SLUICE_CTL selects a kind for compression (R268). -/
def Part.compresses (p : Part) : RecKind → Bool
  | .window => p.bit 0x30040 0
  | .snapshot => p.bit 0x30040 1
  | .trace => p.bit 0x30040 2
  | .raw => p.bit 0x30040 3
  | _ => false

/-- Whether the link is UP (R276). -/
def Part.linkUp (p : Part) (lane : Option Nat) : Bool := p.fld (linkBase lane + 0x44) 0 2 == 2

/-- A record offered to Sluice (R267): accepted only with the link UP and room in its queue. A kind selected for
compression becomes a job (R266) while SLUICE is ACTIVE, and is sent as it is otherwise; step records start the
Tributary transit stage (R281). `none`: not accepted. -/
def sluiceOffer (p : Part) (s : Port) (rc : Rec) : Option (Part × Port) :=
  if !p.linkUp none then none
  else
    let q := p.qOf rc.kind
    let n := rc.bytes.length
    if p.compresses rc.kind && p.active 0x30 && decide (n ≤ 65536) then
      let space := (n * p.fld 0x30044 0 7 + 99) / 100 + 12
      if s.room q (cellBytes space) then
        let p := (p.stageStart 0x30 0 0 0 p.now).inc64 0x30048 n
        some (p, { s with jobs := s.jobs ++ [⟨rc, q, space, cellBytes space, p.now⟩] })
      else none
    else if s.room q (cellBytes n) then
      let p := if p.compresses rc.kind then p.inc 0x30060 else p
      let p := if rc.kind = .step then p.stageStart 0x31 0 0 0 p.now else p
      some (p, s.setQueue q (s.queue q ++ splitCells rc n false false p.t))
    else none

/-- The admission bucket refilled to the present time (R278: one record per µs, up to `burst`). -/
def Bucket.refill (b : Bucket) (us burst : Nat) : Bucket := ⟨min burst (b.tokens + (us - b.at_)), max us b.at_⟩

/-- A strict entry placed in queue `q` of capacity `cap` (R278): a full queue displaces its oldest entry, counted in
STRICT_LOST_COUNT and raised as STRICT_LOST on a die. -/
def strictPut (p : Part) (s : Port) (lane : Option Nat) (q cap : Nat) (c : Cell) : Part × Port :=
  let cs := s.queue q
  if cs.length < cap then (p, s.setQueue q (cs ++ [c]))
  else
    let lost := sget 0 s.lostSince q + 1
    let s := s.setQueue q (cs.drop 1 ++ [c])
    match lane with
    | some _ => (p, s)
    | none =>
      let p := p.inc (0x3006C + 4 * q)
      let silent := wbit (p.hdr 0x30).errStat 17 || wbit (p.hdr 0x30).errMask 17
      (p.raise 0x30 17 { unit := q, detail := leBytes 1 q ++ leBytes 4 lost },
       { s with lostSince := sput 0 s.lostSince q (if silent then lost else 0) })

/-- An S0 cell: discarded while the link is not UP (R276), else queued (64 cells, R277). -/
def putS0 (p : Part) (s : Port) (lane : Option Nat) (c : Cell) : Part × Port :=
  if p.linkUp lane then strictPut p s lane 0 64 c else (p, s)

/-- A health record offered to S1 or S2 under the admission limit (R278); beyond it the record is only counted. -/
def putHealth (p : Part) (s : Port) (path : RecPath) (r : HealthRec) : Part × Port :=
  let us := p.now / 1000
  let c : Cell := { typ := 1, len := 64, body := .health r, enq := p.t }
  match path with
  | .s1 =>
    let b := s.s1.refill us 2048
    if b.tokens = 0 then (p.inc 0x30078, { s with s1 := b })
    else strictPut p { s with s1 := { b with tokens := b.tokens - 1 } } none 1 2048 c
  | _ =>
    let b := s.s2.refill us 1024
    if b.tokens = 0 then (p.inc 0x3007C, { s with s2 := b })
    else strictPut p { s with s2 := { b with tokens := b.tokens - 1 } } none 2 1024 c

/-- Every health record emitted so far queued, in order; queuing one may raise STRICT_LOST once more (R278). -/
def flushHealth : Nat → Part → Port → Part × Port
  | 0, p, s => (p, s)
  | f + 1, p, s =>
    match p.emitted with
    | [] => (p, s)
    | (path, r) :: es =>
      let (p, s) := putHealth { p with emitted := es } s path r
      flushHealth f p s

/-- The cell of a BORE_NOTE (table Cell types). -/
def noteCell (e : BoreEvent) (time status enq : Nat) : Cell :=
  { typ := 5, len := 48, body := .note e time status, enq := enq }

/-! ### Compression jobs -/

/-- The oldest job ends (R266): DONE sends the block, NO_GAIN the original; OUT_OF_SPACE releases the reservation,
and the original is sent if its queue has room. The answer gives a record that was not accepted back to its producer. -/
def jobDone (p : Part) (s : Port) : Part × Port × Option Rec :=
  match s.jobs with
  | [] => (p, s, none)
  | j :: js =>
    let s := { s with jobs := js }
    let (late, p) := p.stageDone 0x30 0 0
    let p := p.event 0x30
    let n := j.rc.bytes.length
    let b := encodeBlock j.rc.bytes
    if j.space < b.length ∧ j.space < n then
      let p := (p.inc 0x3005C).raise 0x30 16
        { detail := leBytes 1 (qmapIndex j.rc.kind) ++ leBytes 4 n ++ leBytes 4 j.space }
      if s.room j.queue (cellBytes n) then
        (p, s.setQueue j.queue (s.queue j.queue ++ splitCells j.rc n false late p.t), none)
      else (p, s, some j.rc)
    else if n ≤ b.length then
      (p.inc 0x30058, s.setQueue j.queue (s.queue j.queue ++ splitCells j.rc n false late p.t), none)
    else (p.inc64 0x30050 b.length,
      s.setQueue j.queue (s.queue j.queue ++ splitCells j.rc b.length true late p.t), none)

/-! ### Gates and the scheduler -/

/-- The gate list in force (R284). -/
def Part.gclForce (p : Part) (lane : Option Nat) : List Nat :=
  (List.range (p.fld (schedBase lane + 0x12C) 8 7)).map fun e => p.num (schedBase lane + 0x300 + 4 * e)

/-- The staging list (R284). -/
def Part.gclStage (p : Part) (lane : Option Nat) : List Nat :=
  (List.range (p.fld (schedBase lane + 0x128) 0 7)).map fun e => p.num (schedBase lane + 0x200 + 4 * e)

/-- DURATION of an entry, in ns (R282). -/
def gclDuration (entry : Nat) : Nat := entry % 16777216

/-- Whether an entry opens weighted queue `w` (0–7) (R282). -/
def entryOpens (entry w : Nat) : Bool := entry.testBit (24 + w)

/-- The entries of a list from the one that holds an instant `t` ns into its cycle, and the ns left of that one (R282). -/
def gclFrom : List Nat → Nat → List Nat × Nat
  | [], _ => ([], 0)
  | e :: es, t => if t < gclDuration e then (e :: es, gclDuration e - t) else gclFrom es (t - gclDuration e)

/-- The first instant, `t` being the end of the entries gone by, at which an entry does not open `w`; `none` where every one
does. -/
def gclCloses (w : Nat) : List Nat → Nat → Option Nat
  | [], _ => none
  | e :: es, t => if entryOpens e w then gclCloses w es (t + gclDuration e) else some t

/-- Whether the gate of weighted queue `w` is open, and the instant it closes (R282, R283): the end of the last consecutive
open entry, counted across the cycle boundary, where a list whose switch is pending follows; `none` where it never closes. -/
def gateOf (p : Part) (lane : Option Nat) (w : Nat) : Bool × Option Nat :=
  let (es, left) := gclFrom (p.gclForce lane) (p.now % 125000)
  match es with
  | [] => (false, none)
  | e :: es => (entryOpens e w, gclCloses w
      (es ++ (if p.bit (schedBase lane + 0x12C) 1 then p.gclStage lane else p.gclForce lane)) (p.now + left))

/-- Charge of a cell (R279); a TRIB_PORT charges a fixed overhead of 20 bytes. -/
def Part.charge (p : Part) (lane : Option Nat) (c : Cell) : Nat :=
  c.len + (match lane with | none => p.fld 0x30068 0 8 | some _ => 20)

/-- Whether the head of weighted queue `w` may start now (R279, R283): in guard-band mode more than GUARD_NS before the
closing, else so that its charge at 0.04 ns a byte ends by the closing. -/
def eligible (p : Part) (s : Port) (lane : Option Nat) (w : Nat) : Bool :=
  match s.queue (3 + w) with
  | [] => false
  | c :: _ => match gateOf p lane w with
    | (false, _) => false
    | (true, none) => true
    | (true, some t) =>
      if (p.num (schedBase lane + 0x120)).testBit w then
        decide (p.t + p.fld (schedBase lane + 0x124) 0 16 * 4294967296 < t * 4294967296)
      else decide (25 * p.t + p.charge lane c * 4294967296 ≤ 25 * t * 4294967296)

/-- WEIGHT of a weighted queue. -/
def Part.weight (p : Part) (lane : Option Nat) (w : Nat) : Nat := p.fld (schedBase lane + 0x100 + 4 * w) 0 8

/-- The deficit rule of R279 from the round's present queue: the queue to send from, and the port after the credit
given on the way. A queue of weight 0 is served only when no queue of nonzero weight is eligible. -/
def pickWeighted (p : Part) (lane : Option Nat) : Nat → Port → Option (Nat × Port)
  | 0, _ => none
  | f + 1, s =>
    let w := s.rr % 8
    let q := 3 + w
    let nxt (s : Port) : Port := { s with rr := (w + 1) % 8, credited := false }
    if p.weight lane w = 0 then pickWeighted p lane f (nxt s)
    else
      let s := if eligible p s lane w && !s.credited then
          { s with credited := true, deficits := sput 0 s.deficits q (sget 0 s.deficits q + 256 * p.weight lane w) }
        else s
      match s.queue q with
      | [] => pickWeighted p lane f (nxt { s with deficits := sput 0 s.deficits q 0 })
      | c :: _ =>
        if eligible p s lane w && decide (p.charge lane c ≤ sget 0 s.deficits q) then
          some (q, { s with deficits := sput 0 s.deficits q (sget 0 s.deficits q - p.charge lane c) })
        else pickWeighted p lane f (nxt s)

/-- The queue the next cell comes from (R279): S0, S1, S2, then the weighted queues. -/
def pickQueue (p : Part) (s : Port) (lane : Option Nat) : Option (Nat × Port) :=
  if (s.queue 0).isEmpty = false then some (0, s)
  else if (s.queue 1).isEmpty = false then some (1, s)
  else if (s.queue 2).isEmpty = false then some (2, s)
  else if (List.range 8).any (fun w => eligible p s lane w && decide (0 < p.weight lane w)) then
    pickWeighted p lane 100 s
  else match (List.range 8).find? (fun w => eligible p s lane w) with
    | some w => some (3 + w, s)
    | none => none

/-- The FLAGS byte of a record with bits set, its CRC computed afresh (R117, R281). -/
def patchFlags (bs : List Byte) (bits : Nat) : List Byte :=
  withCrc ((bs.set 5 (bs.getD 5 0 ||| BitVec.ofNat 8 bits)).take (bs.length - 4))

/-- A step record's transit judged as its cell passes (R281): reception is the selection instant, the residence, the
cell's bytes at 25 GB/s and HEADWATER_LAST_DELAY; past the deadline the record is marked LATE and the miss counted. Instants
are held in 1/25 of 2⁻³² ns, so that nothing is rounded. -/
def stepTransit (p : Part) (c : Cell) (resid : Nat) : Part × Cell :=
  match c.body with
  | .part rc off =>
    if rc.kind = .step then
      match p.stageFind 0x31 0 0 with
      | none => (p, c)
      | some i =>
        let p' := { p with stages := p.stages.erase i }
        let reached := 25 * (p.t + resid * 65536 + p.num 0x107C * 268435456) + c.bytes * 4294967296
        let due := 25 * ((i.start + i.deadline) * 4294967296 + i.frac)
        if due < reached then
          let p' := if i.missed then p' else p'.noteMiss 0x31 i.lateItem
          (p'.lateDelivered 0x31 i.lateItem ((reached - due) / (25 * 268435456)),
           { c with body := .part { rc with bytes := patchFlags rc.bytes 4 } off })
        else (p', c)
    else (p, c)
  | _ => (p, c)

/-- A time cell stamped as the scheduler selects it (R273): t1 or t3 in 2⁻¹⁶ ns. -/
def stampCell (p : Part) (c : Cell) : Cell :=
  match c.body with
  | .timeSync e _ => { c with body := .timeSync e (p.time.toNat / 65536) }
  | .timeDelay e _ => { c with body := .timeDelay e (p.time.toNat / 65536) }
  | _ => c

/-- The cell on the lane counted once its last byte has crossed the serializer (R286): TX_CELLS, and TRIB's EVENT_COUNT. -/
def laneSettle (p : Part) (s : Port) (lane : Option Nat) : Part × Port :=
  match s.sending with
  | none => (p, s)
  | some x =>
    if x.until_ ≤ p.t then
      let p := p.inc64 (linkBase lane + 0x60) 1
      (match lane with | none => p.event 0x31 | some _ => p, { s with sending := none })
    else (p, s)

/-- The lane free for the next cell (R279): where a cell is still crossing, the instant its last byte has crossed comes. -/
def laneFree (p : Part) (s : Port) (lane : Option Nat) : Part × Port :=
  laneSettle (match s.sending with | none => p | some x => p.reachAt x.until_) s lane

/-- The check result of the read of a queue as its head cell leaves (R277, R459): on SLUICE's page, or the lane's; the memory
is the queue (log entry 201). -/
def queueRead (p : Part) (lane : Option Nat) (q : Nat) (ecc : Ecc) : Ecc × Part :=
  match p.draw32 with
  | (w, p) => p.eccRead (schedBase lane / 0x1000) (w.toNat % 8192) q ecc 0

/-- A queue without the cells left of the record its head belongs to, one of whose words is not correctable (R277, R459). -/
def Port.dropRecord (s : Port) (q : Nat) : Port :=
  s.setQueue q (((s.queue q).drop 1).dropWhile fun c => !c.first)

/-- The cell a queue gives up, its CSEQ taken (R271), with the port after it. -/
def Port.takeHead (s : Port) (q : Nat) (cs : List Cell) (x : Sending) : Port :=
  { s.setQueue q cs with
    txSeq := sput 0 s.txSeq q ((sget 0 s.txSeq q + 1) % 65536)
    sending := some x
    deficits := if cs.isEmpty then sput 0 s.deficits q 0 else s.deficits }

/-- The next cell selected and sent (R279): the queue's head leaves with its CSEQ (R271), and its time in the queue, up to the
serializer, counts toward DELAY_MAX (R285). The answer is a cell whose word in the queue was not correctable: its record is
discarded (R277, R459). -/
def sendCell (p : Part) (s : Port) (lane : Option Nat) (resid : Nat) (ecc : Ecc) : Option Cell × Part × Port :=
  if !p.linkUp lane then (none, p, s)
  else
    let (p, s) := laneFree p s lane
    match pickQueue p s lane with
    | none => (none, p, s)
    | some (q, s') =>
      match s.queue q with
      | [] => (none, p, s)
      | c :: cs =>
        match queueRead p lane q ecc with
        | (.ue, p) => (some c, p, s.dropRecord q)
        | (_, p) =>
          let (p, c) := stepTransit p c resid
          let c := stampCell p c
          let a := schedBase lane + 0x14C + 0x10 * q
          let p := p.setNum a (max (p.num a) (min 0xFFFFFFFF ((p.t + resid * 65536 - c.enq) / 4294967296)))
          (none, { p with out := p.out ++ [.cell lane c resid (c.frame q (sget 0 s.txSeq q) resid)] },
            s'.takeHead q cs ⟨q, c, p.t + resid * 65536 + (c.bytes * 4294967296 + 24) / 25⟩)

/-- A gate cycle begins (R282, R285): the boundary last passed where it has not been taken yet, else the next one. The queue
samples are taken, and a staging list armed before the boundary comes into force (R284). -/
def gateCycle (p : Part) (s : Port) (lane : Option Nat) : Part × Port :=
  let b := schedBase lane
  let k := p.now / 125000 * 125000
  let at_ := if s.cycleAt = some k then k + 125000 else k
  let p := p.reach at_
  let p := (List.range 11).foldl (fun p q =>
    let p := p.setNum (b + 0x144 + 0x10 * q) (s.depth q)
    p.setNum (b + 0x148 + 0x10 * q) (match s.queue q with
      | [] => 0
      | c :: _ => min 0xFFFFFFFF ((p.t - c.enq) / 4294967296))) p
  let p := if p.bit (b + 0x12C) 1 && decide (s.gclAt < at_ * 4294967296) then
      let p := (List.range 64).foldl (fun p e => p.wr (b + 0x300 + 4 * e) (p.rd (b + 0x200 + 4 * e))) p
      ((p.setFld (b + 0x12C) 8 7 (p.fld (b + 0x128) 0 7)).setBit (b + 0x12C) 1 false).setBit (b + 0x12C) 2
        (!p.bit (b + 0x12C) 2)
    else p
  (p, { s with cycleAt := some at_ })

/-- The gate cycle after the counter was stepped (R282): it follows the new time, whose last boundary counts as taken unless
the step has reached it exactly. A step counts as after the arming of a switch; a cell on the lane crosses in the time it
needs. `moved` is the step in 2⁻³² ns. -/
def gateStepped (p : Part) (s : Port) (moved : Int) : Port :=
  let k := p.now / 125000 * 125000
  { s with
    cycleAt := if p.t = k * 4294967296 then none else some k
    gclAt := 0
    sending := s.sending.map fun x => { x with until_ := ((x.until_ : Int) + moved).toNat } }

/-- The entry in force ends and the next one's OPEN bits apply (R282); at the last entry's end the next cycle begins, which is
GATE_CYCLE_BOUNDARY's. -/
def gclAdvance (p : Part) (lane : Option Nat) : Part :=
  match gclFrom (p.gclForce lane) (p.now % 125000) with
  | (_ :: _ :: _, left) => p.reach (p.now + left)
  | _ => p

/-- SWITCH_ARM (R284): refused with ACCESS_ERR unless the first GCL_LEN entries have nonzero durations that sum to
125,000 and no switch is pending. -/
def gclArm (p : Part) (s : Port) (lane : Option Nat) : Part × Port :=
  let b := schedBase lane
  let ds := (p.gclStage lane).map gclDuration
  if p.bit (b + 0x12C) 1 ∨ ds.sum ≠ 125000 ∨ 0 ∈ ds then (p.accessErr (b / 0x1000) (b + 0x12C) 1 true, s)
  else (p.setBit (b + 0x12C) 1 true, { s with gclAt := p.t })

/-! ### The link -/

/-- Link state written (STAT.LINK: 0 OFF, 1 TRAINING, 2 UP). -/
def Part.setLink (p : Part) (lane : Option Nat) (v : Nat) : Part := p.setFld (linkBase lane + 0x44) 0 2 v

/-- Training starts afresh: adaptation restarts, lock is lost (R276). -/
def startTraining (p : Part) (s : Port) (lane : Option Nat) : Part × Port :=
  ((p.setLink lane 1).setBit (linkBase lane + 0x44) 2 false,
   { s with trainSent := 0, trainGot := none, trainSince := p.now, crcTimes := [] })

/-- ENABLE of R276: the page enters ACTIVE. -/
def linkEnable (p : Part) (s : Port) (lane : Option Nat) : Part × Port :=
  if p.fld (linkBase lane + 0x44) 0 2 = 0 then startTraining p s lane else (p, s)

/-- The cell still crossing the serializer as UP is left (R276): an S1 or S2 cell goes back to the head of its queue, an S0
cell is discarded, a weighted cell is lost and answered. -/
def cutSending (p : Part) (s : Port) (lane : Option Nat) : Option Cell × Part × Port :=
  let (p, s) := laneSettle p s lane
  match s.sending with
  | none => (none, p, s)
  | some x =>
    let s := { s with sending := none }
    if x.queue = 0 then (none, p, s)
    else if x.queue < 3 then (none, p, s.setQueue x.queue (x.cell :: s.queue x.queue))
    else (some x.cell, p, s)

/-- DISABLE of R276: the page leaves ACTIVE; the lane goes to reset, queued cells are kept, S0 cells are discarded on
leaving UP. -/
def linkDisable (p : Part) (s : Port) (lane : Option Nat) : Part × Port :=
  let s := if p.linkUp lane then s.setQueue 0 [] else s
  ((p.setLink lane 0).setBit (linkBase lane + 0x44) 2 false, { s with trainSent := 0, trainGot := none })

/-- UP is left for TRAINING (R276): LOSS_COUNT, LINK_DOWN with its cause, S0 cells discarded. -/
def linkDown (p : Part) (s : Port) (lane : Option Nat) (cause : Nat) : Part × Port :=
  let p := (p.inc (linkBase lane + 0x50)).raise (linkPage lane) 16
    { unit := (match lane with | none => 0 | some l => l), detail := leBytes 1 cause ++ leBytes 8 p.now }
  startTraining p (s.setQueue 0 []) lane

/-- A LOSS, TIMEOUT or RETRAIN input (R276): in UP the link goes down, in TRAINING adaptation restarts. -/
def linkRestart (p : Part) (s : Port) (lane : Option Nat) (cause : Nat) : Part × Port :=
  match p.fld (linkBase lane + 0x44) 0 2 with
  | 1 => let (p, s) := startTraining p s lane
         (p.inc (linkBase lane + 0x4C), s)
  | 2 => if cause = 6 then (p, s) else linkDown p s lane cause
  | _ => (p, s)

/-- TRAINED taken when it holds (R276): a valid TRAIN received and three sent; CSEQ starts at 0 both ways. -/
def linkTrained (p : Part) (s : Port) (lane : Option Nat) : Part × Port :=
  match s.trainGot with
  | none => (p, s)
  | some (port, id) =>
    if p.fld (linkBase lane + 0x44) 0 2 = 1 ∧ 3 ≤ s.trainSent then
      ((((p.setLink lane 2).setFld (linkBase lane + 0x44) 8 8 port).setNum (linkBase lane + 0x48) id),
       { s with txSeq := [], rxSeq := [], partials := [] })
    else (p, s)

/-- A sequence number taken in on a queue (R271): CELL_LOST when it is not one above the last. -/
def rxCseq (p : Part) (s : Port) (lane : Option Nat) (q cseq : Nat) : Part × Port :=
  let want := sget 0 s.rxSeq q
  let s := { s with rxSeq := sput 0 s.rxSeq q ((cseq + 1) % 65536) }
  if cseq = want then (p, s)
  else (p.raise (linkPage lane) 17
    { unit := (match lane with | none => 0 | some l => l)
      detail := leBytes 1 q ++ leBytes 2 want ++ leBytes 2 cseq }, s)

/-- A cell refused (R271, R272, R274): CELL_REFUSED with its header fields and the cause. -/
def cellRefused (p : Part) (lane : Option Nat) (typ q len cause : Nat) : Part :=
  p.raise (linkPage lane) 18
    { unit := (match lane with | none => 0 | some l => l)
      detail := leBytes 1 typ ++ leBytes 1 q ++ leBytes 2 len ++ leBytes 1 cause }

/-- A received cell counted (R286). -/
def rxCount (p : Part) (lane : Option Nat) : Part :=
  let p := p.inc64 (linkBase lane + 0x68) 1
  match lane with | none => p | some l => p.event (0x10 + l)

/-- Both cell counters latched at a cut (R286). -/
def cutLatch (p : Part) (s : Port) (lane : Option Nat) (id : Nat) : Part × Port :=
  let b := linkBase lane
  let (p, s) := laneSettle p s lane
  (((p.setNum64 (b + 0x70) (p.num64 (b + 0x60))).setNum64 (b + 0x78) (p.num64 (b + 0x68))).setNum (b + 0x80) id, s)

end Sys2Proof.Machine
end

