-- ==== Sys2Proof/Machine/Spring.lean ====
section
/-! DEFINITION. Spring (chapter 05): Rill counters and their residues (R101–R104), health points (R105), step markers
and step records (R106–R109), closing a window (R110–R112), window and raw records (R113–R116), and retention (R117). -/

namespace Sys2Proof.Machine

/-- The die with its common part changed. -/
def Die.onPart (d : Die) (f : Part → Part) : Die := { d with part := f d.part }

/-- The die with its Spring state changed. -/
def Die.onSpring (d : Die) (f : SpringState → SpringState) : Die := { d with spring := f d.spring }

/-- Present Headwater time of a die in ns. -/
def Die.now (d : Die) : Nat := d.part.now

/-- A record offered to Sluice (R267): the die after acceptance, or `none`. -/
def Die.offer (d : Die) (rc : Rec) : Option Die :=
  match sluiceOffer d.part d.port rc with
  | some (p, s) => some { d with part := p, port := s }
  | none => none

/-- The die with its part and lane end changed together. -/
def Die.onLane (d : Die) (f : Part → Port → Part × Port) : Die :=
  let (p, s) := f d.part d.port
  { d with part := p, port := s }

/-- A record counted as if its producer had discarded it (R109, R115, R117). -/
def Die.recordLost (d : Die) (rc : Rec) : Die :=
  match rc.kind with
  | .window => d.onPart fun p => (p.inc 0x40068).raise 0x40 16 { detail := leBytes 8 rc.tag }
  | .step => d.onPart fun p => (p.inc 0x40070).raise 0x40 17 { detail := leBytes 4 rc.tag }
  | .raw => d.onPart fun p => (p.inc 0x40074).raise 0x40 20
      { detail := leBytes 8 rc.tag ++ leBytes 1 (leNat (slice rc.bytes 38 2) / 4096) }
  | _ => d

/-- A cell that never reaches the aggregator: the record it belongs to is lost. -/
def Die.cellLost (d : Die) (c : Option Cell) : Die :=
  match c with
  | some c => match c.body with
    | .part rc _ => d.recordLost rc
    | _ => d
  | none => d

/-- A change of the lane end; where UP is left, what becomes of a cell half sent (R276). -/
def Die.laneAct (d : Die) (f : Part → Port → Part × Port) : Die :=
  let was := d.part.linkUp none
  let d := d.onLane f
  if was && !d.part.linkUp none then
    let (c, p, s) := cutSending d.part d.port none
    ({ d with part := p, port := s }).cellLost c
  else d

/-! ### Counters -/

/-- The RILL page of a tap and the byte offset of its slot (R35). -/
def tapPage (t : Nat) : Nat := 0x080 + t / 16
/-- The byte offset of a tap's slot in the die window (R35). -/
def tapBase (t : Nat) : Nat := tapPage t * 0x1000 + 0x40 + (t % 16) * 0xC0

/-- The always-on table entry of a bank: its reset table names counter 128 s in slot s (R104). -/
def aonEntry (m : SMap Nat) (s : Nat) : Nat := sget (128 * s) m s % 32768

/-- Whether a tap counts (R104, R111): its unit is present, its RILL page ACTIVE, COUNT_EN 1, and AON_ONLY does not
exclude it. -/
def CountCtx.counts (c : CountCtx) (t : Nat) : Bool :=
  !sget false c.absent t && sget false c.rillActive (tapPage t) && sget true c.countEn t &&
    (!c.aonOnly || (List.range 256).any fun s => aonEntry c.aon s / 16 == t)

/-- The always-on bank in force (R104, R112). -/
def SpringState.aonForce (s : SpringState) : SMap Nat := if s.cfg.ctl.toNat.testBit 7 then s.aon1 else s.aon0

/-- What decides counting under the configuration in force. -/
def Die.countCtx (d : Die) : CountCtx :=
  { aonOnly := d.spring.cfg.ctl.toNat.testBit 2, aon := d.spring.aonForce, countEn := d.spring.countEn
    absent := d.ties.tapAbsent
    rillActive := (d.part.hdrs.filter fun e => decide (0x080 ≤ e.1 ∧ e.1 ≤ 0x0FF) && e.2.state == .active).map
      fun e => (e.1, true) }

/-- One increment of a counter (R10, R101, R102); a counter that saturates takes the residue of its limit (log entry 58). -/
def Counter.add (c : Counter) (n : Nat) : Counter :=
  if c.sat then c
  else if 0xFFFFFFFFFFFF ≤ c.sum + n then { c with sum := 0xFFFFFFFFFFFF, sat := true, residue := 0 }
  else { c with sum := c.sum + n, residue := (c.residue + n % 3) % 3 }

/-- Counter `i` advanced by `n` if its tap counts; a counter that saturates raises SAT on its RILL page (R121). An armed SAT
injection saturates the next counter that an increment reaches (R47; log entry 187). -/
def Die.tapAdd (d : Die) (i n : Nat) : Die :=
  if d.countCtx.counts (i / 16) then
    let c := sget {} d.spring.counters i
    let (inj, p) := if c.sat || n == 0 then (false, d.part) else d.part.takeInject (tapPage (i / 16)) 5
    let c' := c.add (if inj then 0xFFFFFFFFFFFF else n)
    let d := { d with part := p }.onSpring fun s => { s with counters := sput {} s.counters i c' }
    if c'.sat && !c.sat then d.onPart fun p => p.raise (tapPage (i / 16)) 5
      { unit := i, injected := inj, detail := leBytes 2 (i % 16) }
    else d
  else d

/-- The delta word of counter `i` in a window (R111). DESIGN CHOICE (log entry 188): missing goes before invalid, and invalid
before saturated. -/
def WinJob.delta (w : WinJob) (i : Nat) : Nat :=
  if !w.ctx.counts (i / 16) then 0x80000000
  else
    let c := sget {} w.closed i
    let o := sget {} w.opened i
    if c.invalid then 0xC0000000
    else if c.sat then 0x7FFFFFFF
    else (c.sum - o.sum) % 0x40000000

/-- The counters whose residue fails at a close, or has failed before (R102): the mismatch marks the counter invalid
and raises RESIDUE on its RILL page; `inj` lists the counters an injection reached (R47). -/
def Die.checkResidues (d : Die) (inj : List Nat) : Die :=
  d.spring.counters.foldl (fun d e =>
    let c := e.2
    if !c.invalid && decide (c.sum % 3 ≠ c.residue) then
      (d.onSpring fun s => { s with counters := sput {} s.counters e.1 { c with invalid := true } }).onPart fun p =>
        p.raise (tapPage (e.1 / 16)) 4
          { unit := e.1, injected := inj.contains e.1
            detail := leBytes 4 e.1 ++ leBytes 1 c.residue ++ leBytes 1 (c.sum % 3) }
    else d) d

/-- The counters an armed RESIDUE injection of a RILL page lands on: the lowest that counts at the close (R47, R102). -/
def Die.residueTargets (d : Die) : List Nat :=
  d.part.hdrs.filterMap fun e =>
    if decide (0x080 ≤ e.1 ∧ e.1 ≤ 0x0FF) && e.2.armed.toNat.testBit 4 then
      ((List.range 16).find? fun k => d.countCtx.counts ((e.1 - 0x080) * 16 + k)).map fun k =>
        ((e.1 - 0x080) * 16 + k) * 16
    else none

/-- Armed RESIDUE injections of RILL pages applied (R47, R102). -/
def Die.injectResidues (d : Die) : Die :=
  d.residueTargets.foldl (fun d i =>
    let c := sget {} d.spring.counters i
    { d with
      part := (d.part.takeInject (tapPage (i / 16)) 4).2
      spring := { d.spring with
        counters := sput {} d.spring.counters i { c with residue := (c.residue + 1) % 3 } } }) d

/-- The taps whose CLR is pending are zeroed at the boundary (R103), and COUNT_EN takes its written values. -/
def Die.boundaryTaps (d : Die) : Die :=
  d.part.regs.foldl (fun d e =>
    if 0x80000 ≤ e.1 ∧ e.1 < 0x100000 ∧ 0x40 ≤ e.1 % 0x1000 ∧ (e.1 % 0x1000 - 0x40) % 0xC0 = 0 then
      let t := (e.1 / 0x1000 - 0x080) * 16 + (e.1 % 0x1000 - 0x40) / 0xC0
      let d := d.onSpring fun s => { s with countEn := sput true s.countEn t (wbit e.2 2) }
      if wbit e.2 3 then
        (d.onSpring fun s =>
          { s with
            counters := (List.range 16).foldl (fun m k => sput {} m (t * 16 + k) {}) s.counters
            latched := (List.range 16).foldl (fun m k => sput {} m (t * 16 + k) {}) s.latched }).onPart fun p =>
              p.setBit e.1 3 false
      else d
    else d) d

/-! ### Health points -/

/-- Health-point inputs presented: each named point takes its value and validity (R418). -/
def Die.hpPresent (d : Die) (vals : List (Nat × W16 × Bool)) : Die :=
  d.onPart fun p => { p with hpIn := vals.foldl (fun m v => sput {} m v.1 ⟨v.2.1, v.2.2⟩) p.hpIn }

/-- One sample of a point reduced by its kind (R105): maximum, minimum, sum for the mean, or last. -/
def HpRun.add (r : HpRun) (pt : Nat) (v : W16) : HpRun :=
  { count := r.count + 1, sum := r.sum + v.toNat
    best :=
      if r.count = 0 then v
      else if pt < 128 then (if r.best.toInt < v.toInt then v else r.best)
      else if pt < 256 then (if v.toNat < r.best.toNat then v else r.best)
      else v }

/-- Every valid input sampled into the window's running reduction (R105). -/
def Die.hpSample (d : Die) : Die :=
  d.onSpring fun s =>
    { s with hpRun := d.part.hpIn.foldl (fun m e =>
        if e.2.valid && decide (e.1 < 448) then sput {} m e.1 ((sget {} m e.1).add e.1 e.2.val) else m) s.hpRun }

/-- The missing value of a health point (R105). -/
def hpMissing (pt : Nat) : W16 :=
  if pt < 128 then 0x8000 else if pt < 256 then 0 else if pt < 448 then 0xFFFF else if pt < 480 then 0 else 0x8000

/-- The window value of a health point (R105); points 448–511 are the monitors' periods and drifts (R94). -/
def Die.hpValue (d : Die) (pt : Nat) : W16 :=
  if pt < 448 then
    let r := sget {} d.spring.hpRun pt
    if r.count = 0 then hpMissing pt
    else if 256 ≤ pt ∧ pt < 320 then BitVec.ofNat 16 (r.sum / r.count) else r.best
  else if d.part.active 2 && d.part.bit 0x2040 0 then
    (if pt < 480 then BitVec.ofNat 16 (d.part.fld (0x2080 + 4 * (pt - 448)) 0 16)
     else BitVec.ofNat 16 (d.part.fld (0x2080 + 4 * (pt - 480)) 16 16))
  else hpMissing pt

/-! ### Records -/

/-- FLAGS bits 0 and 1 of a die's records (R51). -/
def flagBits (provisional unsynced : Bool) : Nat := (if provisional then 1 else 0) + (if unsynced then 2 else 0)

/-- The header of a window, raw, snapshot or trace record (R113): `len` counts the whole record. -/
def recHeader (gdid typ flags len index start lenNs part nsect lost : Nat) : List Byte :=
  leBytes 4 gdid ++ leBytes 1 typ ++ leBytes 1 flags ++ leBytes 2 len ++ leBytes 8 index ++ leBytes 8 start ++
    leBytes 4 lenNs ++ leBytes 2 part ++ leBytes 1 nsect ++ leBytes 1 lost

/-- A section with its 8-byte header (R113). -/
def section_ (typ : Nat) (late : Bool) (count sel : Nat) (body : List Byte) : List Byte :=
  leBytes 1 typ ++ leBytes 1 (if late then 1 else 0) ++ leBytes 2 count ++ leBytes 2 (body.length + 8) ++
    leBytes 2 sel ++ body

/-- A record of one header and its sections, closed by its CRC (R113). -/
def buildRecord (gdid typ flags index start lenNs part lost : Nat) (sects : List (List Byte)) : List Byte :=
  let body := sects.flatten
  withCrc (recHeader gdid typ flags (body.length + 36) index start lenNs part sects.length lost ++ body)

/-- The flags of a window's own records (R113). DESIGN CHOICE (log entry 188): the raw records of a window carry RESUMED with
its window record. -/
def WinJob.flags (w : WinJob) : Nat :=
  flagBits w.provisional w.unsynced + (if w.lateMask % 8 ≠ 0 then 4 else 0) + (if w.injected then 8 else 0) +
    (if w.short then 32 else 0) + (if w.resumed then 64 else 0)

/-- A raw record of `n` delta words of the counters `ix` from position `sel` (R114, R115). -/
def WinJob.rawRecord (w : WinJob) (sel : Nat) (ix : List Nat) : Rec :=
  { kind := .raw, tag := w.index
    bytes := buildRecord w.gdid 0x05 w.flags w.index w.start w.len w.partition 0
      [section_ 0x10 false ix.length sel ((ix.map fun i => leBytes 4 (w.delta i)).flatten)] }

/-- A raw record offered; one that Sluice cannot take at once is discarded and counted (R116). -/
def Die.offerRaw (d : Die) (w : WinJob) (sel : Nat) (ix : List Nat) : Die :=
  match d.offer (w.rawRecord sel ix) with
  | some d => d
  | none => d.onPart fun p => (p.inc 0x40074).raise 0x40 20
      { detail := leBytes 8 w.index ++ leBytes 1 (sel / 4096) }

/-- The raw records of a window (R115): none, the first RAW_COUNT entries of the selection table, or all counters in
eight records. -/
def Die.rawRecords (d : Die) (w : WinJob) : Die :=
  match w.cfg.ctl.toNat / 256 % 4 with
  | 1 => d.offerRaw w 0 ((List.range (w.cfg.rawCount.toNat % 8192)).map fun e => sget 0 d.spring.rawSel e % 32768)
  | 2 => (List.range 8).foldl (fun d k => d.offerRaw w (4096 * k) ((List.range 4096).map (4096 * k + ·))) d
  | _ => d

/-- HELD and its high-water mark after a change of the retention store (R117, R118). -/
def Die.noteHeld (d : Die) : Die :=
  let n := d.spring.retention.length
  d.onPart fun p => (p.setFld 0x40064 0 9 n).setFld 0x40064 16 9 (max n (p.fld 0x40064 16 9))

/-- STEP_HELD after a change of the step store (R109). -/
def Die.noteStepHeld (d : Die) : Die :=
  d.onPart fun p => p.setFld 0x4006C 0 11 d.spring.stepStore.length

/-- LOST of a window record advanced by one, saturating at 255 (R117). -/
def bumpLost (bs : List Byte) : List Byte :=
  withCrc ((bs.set 0x1F (if bs.getD 0x1F 0 = 255 then 255 else bs.getD 0x1F 0 + 1)).take (bs.length - 4))

/-- The `k`-th retained record discarded (R117, R459): it is counted, and the record after it takes one into its LOST field.
DESIGN CHOICE (log entry 189): by R117's words that adds 1, whatever LOST the discarded record itself carried. -/
def Die.dropRetained (d : Die) (k : Nat) : Die :=
  match (d.spring.retention[k]? : Option Rec) with
  | none => d
  | some old =>
    let st := d.spring.retention.eraseIdx k
    let st := match (st[k]? : Option Rec) with
      | none => st
      | some r => st.set k { r with bytes := bumpLost r.bytes }
    ((d.onSpring fun s => { s with retention := st }).noteHeld).onPart fun p =>
      (p.inc 0x40068).raise 0x40 16 { detail := leBytes 8 old.tag }

/-- A window record kept in the retention store (R117): the 257th displaces the oldest. -/
def Die.retain (d : Die) (rc : Rec) : Die :=
  let st := d.spring.retention ++ [rc]
  let d := d.onSpring fun s => { s with retention := st }
  if st.length ≤ 256 then d.noteHeld else d.dropRetained 0

/-- A window record handed to Sluice, or kept in order behind the records already retained (R117). -/
def Die.deliverWindow (d : Die) (rc : Rec) : Die :=
  let d := d.onPart fun p => p.event 0x40
  if d.spring.retention.isEmpty then
    match d.offer rc with
    | some d => d
    | none => d.retain rc
  else d.retain rc

/-- Retained records sent oldest first, marked HELD, while Sluice accepts (R117). `es` are the check results of their reads
from the SEC-DED store, memory 3 of the page; which words a record takes is open, so CE and UE name a free one (log entry
190). A record with an uncorrectable word is discarded (R459). -/
def Die.sendRetained : Nat → List Ecc → Die → Die
  | 0, _, d => d
  | f + 1, es, d =>
    match d.spring.retention with
    | [] => d
    | r :: rs =>
      let held := { r with bytes := patchFlags r.bytes 0x80 }
      if (d.offer held).isNone then d
      else
        let w := (Config.free32 d.part.fresh).toNat % 98304
        let (e, p) := { d.part with fresh := d.part.fresh + 1 }.eccRead 0x40 w 3 (es.headD .ok) 0
        let d := { d with part := p }
        if e = .ue then Die.sendRetained f es.tail (d.dropRetained 0)
        else match d.offer held with
        | none => d
        | some d => Die.sendRetained f es.tail (d.onSpring fun s => { s with retention := rs }).noteHeld

/-- A step record handed to Sluice: its SPRING stage ends here (R108), and a late one carries LATE (R89). -/
def Die.handStep (d : Die) (rc : Rec) : Option Die :=
  match d.offer rc with
  | none => none
  | some _ =>
    let (late, p) := d.part.stageDone 0x40 1 0
    let rc := if late then { rc with bytes := patchFlags rc.bytes 4 } else rc
    let d := { d with part := p }
    let d := if late then d.onSpring fun s => { s with stepLate := true } else d
    d.offer rc

/-- A step record offered, or kept in the step store of 1,024 records, whose oldest is discarded when full (R109). -/
def Die.deliverStep (d : Die) (rc : Rec) : Die :=
  match (if d.spring.stepStore.isEmpty then d.handStep rc else none) with
  | some d => d
  | none =>
    let st := d.spring.stepStore ++ [rc]
    if st.length ≤ 1024 then (d.onSpring fun s => { s with stepStore := st }).noteStepHeld
    else match st with
    | [] => d
    | old :: rest =>
      ((d.onSpring fun s => { s with stepStore := rest }).noteStepHeld).onPart fun p =>
        ((p.stageDrop 0x40 1 0).inc 0x40070).raise 0x40 17 { detail := leBytes 4 old.tag }

/-- Stored step records sent oldest first, marked HELD, while Sluice accepts (R109). -/
def Die.sendStored : Nat → Die → Die
  | 0, d => d
  | f + 1, d =>
    match d.spring.stepStore with
    | [] => d
    | r :: rs =>
      match d.handStep { r with bytes := patchFlags r.bytes 0x80 } with
      | none => d
      | some d => Die.sendStored f (d.onSpring fun s => { s with stepStore := rs }).noteStepHeld

/-! ### Closing and opening windows -/

/-- SPRING configuration as the registers hold it (R112). -/
def Part.springCfg (p : Part) : SpringCfg :=
  { ctl := p.rd 0x40040, selGen := p.rd 0x4004C, rawCount := p.rd 0x40050
    hpSel := (List.range 16).map fun w => p.rd (0x40080 + 4 * w) }

/-- Spring's close of the open window at the present instant (R110): latch, residue check, the window handed on, raw
records. `len` is the LEN_NS of R70. Nothing is closed unless the page is ACTIVE (R118). RESUMED stays due until a window
record carries it. -/
def Die.closeWindow (d : Die) (len : Nat) (short : Bool) : Die :=
  let w := d.spring.window
  let d := if d.spring.hpAt = some d.now then d else d.hpSample
  let inj := if d.part.active 0x40 then d.residueTargets else []
  let d := if d.part.active 0x40 then d.injectResidues.checkResidues inj else d
  let ctx := d.countCtx
  let job : WinJob :=
    { index := w.index, start := w.start, close := d.now, len := len, short := short
      unsynced := d.part.disc.unsynced, provisional := d.part.provisional, gdid := d.part.gdid
      partition := d.part.fld 0x3048 0 16, cfg := d.spring.cfg, resumed := d.spring.resumed
      opened := d.spring.latched, closed := d.spring.counters, ctx := ctx
      health := (List.range 512).map fun i => (i, d.hpValue i)
      steps := d.spring.steps, lastStep := d.part.num 0x40054
      lastStepOff := d.spring.stepOff
      lateMask := if d.spring.stepLate then 8 else 0
      injected := !inj.isEmpty, heldAt := d.spring.retention.length, lostAt := d.part.num 0x40068
      record := d.spring.cfg.ctl.toNat.testBit 0 }
  let d := if d.part.active 0x40 then
      let d := d.onSpring fun s => { s with closing := s.closing ++ [job], resumed := s.resumed && !job.record }
      let d := d.onPart fun p => p.stageStart 0x40 0 0 0 p.now
      d.rawRecords job
    else d
  let d := d.onPart fun p => p.hdrs.foldl (fun p e =>
    if decide (0x080 ≤ e.1 ∧ e.1 ≤ 0x0FF) && e.2.state == .active then p.event e.1 else p) p
  d.onSpring fun s => { s with latched := s.counters, hpRun := [], hpAt := none, steps := 0, stepOff := 0xFFFFFFFF, stepLate := false }

/-- A window opens at the present boundary (R68, R70) under the configuration then written (R112). -/
def Die.openWindow (d : Die) (w : OpenWindow) : Die :=
  let cfg := d.part.springCfg
  (d.onSpring fun s => { s with window := w, cfg := cfg }).onPart fun p => p.setNum64 0x10B0 w.index

end Sys2Proof.Machine
end

