-- ==== Sys2Proof/Machine/Riffle.lean ====
section
/-! DEFINITION. Riffle (chapter 06): input values (R122, R123), feature operations (R126–R129), program images and
their validation (R130–R132), banks and swaps (R133, R134), cost (R135), backlog and absence (R136–R138). -/

namespace Sys2Proof.Machine

/-- The bank of a number: 0 A, 1 B (R139). -/
def RiffleState.bank (r : RiffleState) (b : Nat) : Mem := if b = 0 then r.bankA else r.bankB

/-- The die with a bank replaced. -/
def Die.setBank (d : Die) (b : Nat) (m : Mem) : Die :=
  { d with riffle := if b = 0 then { d.riffle with bankA := m } else { d.riffle with bankB := m } }

/-- NFEAT, NINPUTS, NEDGES_TOTAL of an image (R130). -/
def imgNfeat (m : Mem) : Nat := Mem.rdLE m 6 2
/-- NINPUTS of an image (R130). -/
def imgNin (m : Mem) : Nat := Mem.rdLE m 8 2
/-- NEDGES_TOTAL of an image (R130). -/
def imgNedges (m : Mem) : Nat := Mem.rdLE m 10 2
/-- Byte offset of feature entry `f` (R130). -/
def featOff (m : Mem) (f : Nat) : Nat := 32 + 4 * imgNin m + 16 * f
/-- Byte offset of edge `e` (R130). -/
def edgeOff (m : Mem) (e : Nat) : Nat := 32 + 4 * imgNin m + 16 * imgNfeat m + 4 * e
/-- An edge, signed (R128). -/
def edgeAt (m : Mem) (e : Nat) : Int := signed (Mem.rdLE m (edgeOff m e) 4) 32

/-- A feature entry (R125). -/
structure Feat where
  op : Nat
  rangeMissing : Bool
  shift : Nat
  a : Nat
  b : Nat
  mul : Int
  nb : Nat
  offset : Int
  edgeBase : Nat
  nedges : Nat
  deriving DecidableEq, Repr

/-- Feature entry `f` of an image (R125). -/
def featAt (m : Mem) (f : Nat) : Feat :=
  let o := featOff m f
  { op := Mem.rdLE m o 1 % 8, rangeMissing := (Mem.rdLE m o 1).testBit 3, shift := Mem.rdLE m (o + 1) 1 % 64
    a := Mem.rdLE m (o + 2) 2, b := Mem.rdLE m (o + 4) 2, mul := signed (Mem.rdLE m (o + 6) 2) 16, nb := Mem.rdLE m (o + 6) 2
    offset := signed (Mem.rdLE m (o + 8) 4) 32, edgeBase := Mem.rdLE m (o + 12) 2, nedges := Mem.rdLE m (o + 14) 2 }

/-- Input `i` of a window (R123): its value and the reason it is missing, 0 when it is not. -/
def inputValue (m : Mem) (w : WinJob) (i : Nat) : Int × Nat :=
  let e := Mem.rdLE m (32 + 4 * i) 4
  let ix := e % 65536
  match e / 65536 % 8 with
  | 0 =>
    let dw := w.delta ix
    match dw / 0x40000000 with
    | 0 => ((dw % 0x40000000 : Nat), 0)
    | 1 => (0x3FFFFFFF, if e.testBit 19 then 3 else 0)
    | 2 => (0, 1)
    | _ => (0, 2)
  | 1 =>
    let v := sget (hpMissing ix) w.health ix
    if v = hpMissing ix then (0, 1)
    else if ix < 128 ∨ 480 ≤ ix then (v.toInt, 0) else ((v.toNat : Int), 0)
  | 2 => (signed (w.len % 4294967296) 32, 0)
  | 3 => ((min w.steps 0xFFFF : Nat), 0)
  | _ => if w.lastStepOff = 0xFFFFFFFF then (0, 1) else (signed (w.lastStepOff % 4294967296) 32, 0)

/-- The piecewise-linear log2 of R127, in units of 1/256. -/
def lg (a : Nat) : Nat :=
  let k := Nat.log2 a
  256 * k + (if 8 ≤ k then (a - 2 ^ k) / 2 ^ (k - 8) else (a - 2 ^ k) * 2 ^ (8 - k))

/-- bin(e, s) of R128, as a feature word. -/
def binWord (m : Mem) (e : Feat) (s : Int) : Nat :=
  if e.nedges = 0 then
    (if s < 0 ∨ 0x7FFF < s then (if e.rangeMissing then 0x8006 else if s < 0 then 0 else 0x7FFF) else s.toNat)
  else ((List.range e.nedges).filter fun i => decide (edgeAt m (e.edgeBase + i) < s)).length

/-- One feature evaluated (R126): its word, and the unclamped value when sat32 clamped it. -/
def evalFeat (m : Mem) (w : WinJob) (ws : List Nat) (f : Nat) : Nat × Option Int :=
  let e := featAt m f
  if e.op = 4 then
    let wa := ws.getD e.a 0x8007
    let wb := ws.getD e.b 0x8007
    if 0x8000 ≤ wa then (wa, none)
    else if 0x8000 ≤ wb then (wb, none)
    else
      let c := wa * e.nb + wb
      ((if e.nb ≤ wb ∨ 0x7FFF < c then 0x8006 else c), none)
  else
    let (a, ra) := inputValue m w e.a
    let (b, rb) := if e.op = 1 ∨ e.op = 2 then inputValue m w e.b else (0, 0)
    if ra ≠ 0 then (0x8000 + ra, none)
    else if rb ≠ 0 then (0x8000 + rb, none)
    else
      let x : Int ⊕ Nat :=
        match e.op with
        | 0 => .inl (a * e.mul)
        | 1 => .inl ((a - b) * e.mul)
        | 2 => if b = 0 then .inr (if a = 0 then 0x8005 else 0x8004) else .inl (Int.tdiv (a * e.mul) b)
        | _ => if a ≤ 0 then .inr 0x8005 else .inl ((lg a.toNat : Int) * e.mul)
      match x with
      | .inr word => (word, none)
      | .inl x =>
        let t := Int.fdiv x ((2 ^ e.shift : Nat) : Int) + e.offset
        let s := if t < -2147483648 then -2147483648 else if 2147483647 < t then 2147483647 else t
        (binWord m e s, if s = t then none else some t)

/-- The features of a window from `f` on (R126), with the clamped features met: index and unclamped value. -/
def evalFeats (m : Mem) (w : WinJob) : Nat → Nat → List Nat → List (Nat × Int) → List Nat × List (Nat × Int)
  | 0, _, ws, cl => (ws, cl)
  | k + 1, f, ws, cl =>
    let (x, c) := evalFeat m w ws f
    evalFeats m w k (f + 1) (ws ++ [x]) (match c with | some t => cl ++ [(f, t)] | none => cl)

/-- The 256 feature words of a window (R126), and the clamped features. -/
def featureVector (m : Mem) (w : WinJob) : List Nat × List (Nat × Int) :=
  let (ws, cl) := evalFeats m w (imgNfeat m) 0 [] []
  (ws ++ List.replicate (256 - imgNfeat m) 0x8007, cl)

/-! ### Validation -/

/-- The first index below `n` at which a check fails. -/
def firstBad (n : Nat) (bad : Nat → Bool) : Option Nat := (List.range n).find? bad

/-- ⌈log2 (n + 1)⌉. -/
def ceilLog (n : Nat) : Nat := if n = 0 then 0 else Nat.log2 n + 1

/-- The checks of R132 in table order: the error code and the byte offset of the failing item, or 0. -/
def validateImage (m : Mem) : Nat × Nat :=
  let nf := imgNfeat m
  let ni := imgNin m
  let ne := imgNedges m
  let len := Mem.rdLE m 0x10 4
  let fbad (g : Nat → Feat → Bool) : Option Nat := firstBad nf fun f => g f (featAt m f)
  let fcheck (code : Nat) (g : Nat → Feat → Bool) : Option (Nat × Nat) :=
    (fbad g).map fun f => (code, featOff m f)
  if Mem.rdBytes m 0 4 ≠ [0x52, 0x46, 0x4C, 0x31] then (1, 0)
  else if Mem.rdLE m 4 1 ≠ 1 then (1, 4)
  else if len ≠ 36 + 4 * ni + 16 * nf + 4 * ne ∨ 98304 < len then (2, 0x10)
  else if (crc32 (Mem.rdBytes m 0 (len - 4))).toNat ≠ Mem.rdLE m (len - 4) 4 then (3, len - 4)
  else if nf < 1 ∨ 256 < nf then (4, 6)
  else if ni < 1 ∨ 4096 < ni then (4, 8)
  else if 16384 < ne then (4, 10)
  else match firstBad ni (fun i =>
      let e := Mem.rdLE m (32 + 4 * i) 4
      let ix := e % 65536
      let k := e / 65536 % 8
      decide (4 < k) || decide (1048576 ≤ e) || (k == 0 && decide (32767 < ix)) || (k == 1 && decide (511 < ix)) ||
        (decide (2 ≤ k) && decide (ix ≠ 0))) with
  | some i => (5, 32 + 4 * i)
  | none =>
  match fcheck 6 (fun _ e => decide (4 < e.op) || decide (47 < e.shift)) with
  | some r => r
  | none =>
  match fcheck 7 (fun f e => if e.op = 4 then decide (f ≤ e.a) || decide (f ≤ e.b)
      else decide (ni ≤ e.a) || ((e.op == 1 || e.op == 2) && decide (ni ≤ e.b))) with
  | some r => r
  | none =>
  match fcheck 8 (fun _ e => decide (ne < e.edgeBase + e.nedges) || decide (16383 < e.nedges)) with
  | some r => r
  | none =>
  match fcheck 9 (fun _ e => (List.range (e.nedges - 1)).any fun i =>
      decide (edgeAt m (e.edgeBase + i + 1) ≤ edgeAt m (e.edgeBase + i))) with
  | some r => r
  | none =>
  match (if Mem.rdLE m 5 1 ≠ 0 then some (10, 5) else if Mem.rdLE m 0x14 12 ≠ 0 then some (10, 0x14) else
      fcheck 10 (fun f e =>
        decide (15 < Mem.rdLE m (featOff m f) 1) || decide (63 < Mem.rdLE m (featOff m f + 1) 1) ||
        ((e.op == 0 || e.op == 3) && decide (e.b ≠ 0)) ||
        (e.op == 4 && (decide (e.offset ≠ 0) || decide (e.edgeBase ≠ 0) || decide (e.nedges ≠ 0))) ||
        (e.rangeMissing && decide (0 < e.nedges)))) with
  | some r => r
  | none =>
  match fcheck 11 (fun _ e => e.op == 4 && (decide (e.nb < 1) || decide (32767 < e.nb))) with
  | some r => r
  | none => (0, 0)

/-- The worst-corner Riffle time of an image in whole ns, rounded up (R135). -/
def imageCost (m : Mem) : Nat :=
  let c := ((List.range (imgNfeat m)).map fun f =>
    let e := featAt m f
    if e.op = 4 then 2 else 2 + ceilLog e.nedges).sum
  (max (244 * imgNin m) (300 * c) + 999) / 1000

/-! ### Registers of RIFFLE -/

/-- BANK: the bank in force. -/
def Die.rifBank (d : Die) : Nat := d.part.fld 0x9044 0 1
/-- SWAP_PENDING. -/
def Die.rifPending (d : Die) : Bool := d.part.bit 0x9044 1
/-- OLD_BUSY. -/
def Die.rifOldBusy (d : Die) : Bool := d.part.bit 0x9044 2
/-- VALIDATING. -/
def Die.rifValidating (d : Die) : Bool := d.part.bit 0x9044 5

/-- Whether a bank is in use, so that every write to it is refused (R133). -/
def Die.rifInUse (d : Die) (b : Nat) : Bool :=
  b == d.rifBank || d.rifOldBusy || d.rifPending || d.rifValidating || (d.part.hdr 9).lock

/-- Any write into the spare bank clears SPARE_VALID (R132). -/
def Die.rifTouch (d : Die) (b : Nat) : Die :=
  if b = d.rifBank then d else d.onPart fun p => p.setBit 0x9044 3 false

/-- CTL.VALIDATE (R132): refused while VALIDATING, SWAP_PENDING or LOCK; else SPARE_VALID falls and the check runs. -/
def Die.rifValidate (d : Die) : Die :=
  if d.rifValidating || d.rifPending || (d.part.hdr 9).lock then d.onPart fun p => p.accessErr 9 0x9040 2 true
  else d.onPart fun p => (p.setBit 0x9044 3 false).setBit 0x9044 5 true

/-- The validation of the spare bank ends (R132); an uncorrectable read (`ecc`) of the bank's 64-bit word `word` stops it with VAL_ERR 0x0C. -/
def Die.rifValidated (d : Die) (word : Nat) (ecc : Ecc) : Die :=
  if !d.rifValidating then d
  else
    let b := 1 - d.rifBank
    let m := d.riffle.bank b
    let (ecc, p) := d.part.eccRead 9 word b ecc 0
    let (err, off) := if ecc = .ue then (0x0C, 8 * word) else validateImage m
    let p := (p.setBit 0x9044 5 false).setFld 0x9044 8 8 err
    { d with part :=
        if err = 0 then ((p.setBit 0x9044 3 true).setNum 0x905C (Mem.rdLE m 12 4)).setNum 0x9068 (imageCost m)
        else p.raise 9 16 { detail := leBytes 1 err ++ leBytes 4 off ++ leBytes 1 b } }

/-- CTL.SWAP_ARM (R134). -/
def Die.rifArm (d : Die) : Die :=
  let i := d.part.num64 0x9048
  if !d.part.bit 0x9044 3 || d.rifPending || d.rifOldBusy || (d.part.hdr 9).lock ||
      (decide (i ≠ 0) && decide (i ≤ d.spring.window.index)) then
    d.onPart fun p => p.accessErr 9 0x9040 1 true
  else { d with part := d.part.setBit 0x9044 1 true, riffle := { d.riffle with armed := some i } }

/-- The bank that serves a window is free again (R134). -/
def Die.rifServed (d : Die) (index : Nat) : Die :=
  if d.riffle.oldWindow = some index then
    { d with part := d.part.setBit 0x9044 2 false, riffle := { d.riffle with oldWindow := none } }
  else d

/-- An armed swap taken at the boundary that opens window `index` (R134). `closed` is the window closed there, if
Spring closed one. -/
def Die.rifBoundary (d : Die) (index : Nat) (closed : Option Nat) : Die :=
  match d.riffle.armed with
  | none => d
  | some i =>
    if i = 0 ∨ i ≤ index then
      let p := d.part
      let nb := 1 - p.fld 0x9044 0 1
      let m := d.riffle.bank nb
      let fv := p.bit 0x9044 4
      let sv := p.bit 0x9044 3
      let p' := (((p.setFld 0x9044 0 1 nb).setBit 0x9044 1 false).setBit 0x9044 3 fv).setBit 0x9044 4 sv
      let p' := ((p'.wr 0x9058 (p.rd 0x905C)).wr 0x905C (p.rd 0x9058)).wr 0x9064 (p.rd 0x9068)
      let p' := (p'.wr 0x9068 (p.rd 0x9064)).setNum64 0x9050 index
      let p' := (p'.setFld 0x9060 0 9 (imgNfeat m)).setFld 0x9060 16 13 (imgNin m)
      { d with
        part := p'.setBit 0x9044 2 closed.isSome
        riffle := { d.riffle with armed := none, oldWindow := closed } }
    else d

/-- DRAIN cancels a pending swap (R134). -/
def Die.rifCancel (d : Die) : Die :=
  { d with part := d.part.setBit 0x9044 1 false, riffle := { d.riffle with armed := none } }

/-! ### The input queue -/

/-- What serves a window that closes now (R133, R137): the bank in force, and whether its features are absent. It is
noted on the window closed last, before any swap at that boundary. -/
def Die.rifLatch (d : Die) : Die :=
  d.onSpring fun s =>
    match s.closing.reverse with
    | [] => s
    | j :: js =>
      { s with closing := js.reverse ++
          [{ j with bank := d.rifBank, absent := !d.part.active 9 || !d.part.bit 0x9044 4 }] }

/-- The stage items of a page with the `n`-th of one stage withdrawn (a queued item that another path takes). -/
def Part.stageDropNth (p : Part) (page stage n : Nat) : Part :=
  match ((p.stages.filter fun i => i.page == page && i.stage == stage)[n]? : Option StageItem) with
  | none => p
  | some i => { p with stages := p.stages.erase i }

/-- The position of the second element that a test accepts. -/
def secondIdx {α : Type} (f : α → Bool) (xs : List α) : Option Nat :=
  (((List.range xs.length).filter fun i => match xs[i]? with | some x => f x | none => false)[1]? : Option Nat)

/-- A window's data taken into the input store (R136), absent while the page is FAULTED (R137): beyond four windows, the oldest not begun turns absent,
BACKLOG_COUNT advances and BACKLOG is raised. -/
def Die.rifTake (d : Die) (j : WinJob) : Die :=
  let j := { j with absent := j.absent || d.part.pstate 9 == .faulted }
  let q := d.riffle.queue ++ [j]
  let d := { d with riffle := { d.riffle with queue := q } }
  if j.absent then d
  else
    let d := d.onPart fun p => p.stageStart 9 0 0 0 p.now
    if 4 < (q.filter fun x => !x.absent).length then
      match secondIdx (fun x : WinJob => !x.absent) q with
      | none => d
      | some k => match q[k]? with
        | none => d
        | some x =>
          { d with
            riffle := { d.riffle with queue := q.set k { x with absent := true } }
            part := ((d.part.stageDropNth 9 0 1).inc 0x906C).raise 9 18 { detail := leBytes 8 x.index } }
    else d

/-- MISS_COUNT by reason and SCALE_SAT after a vector (R126, R139). -/
def Part.rifCounts (p : Part) (index : Nat) (ws : List Nat) (cl : List (Nat × Int)) : Part :=
  let p := (List.range 7).foldl (fun p r =>
    p.incBy (0x9070 + 4 * r) (ws.filter fun w => w == 0x8001 + r).length) p
  cl.foldl (fun p c => (p.inc 0x908C).raise 9 17
    { detail := leBytes 1 c.1 ++ leBytes 4 index ++ leBytes 4 (twos c.2 32) }) p

/-- Every window in the input store or still in Spring turned absent: the page has faulted (R137, R138). -/
def Die.rifAbsentAll (d : Die) : Die :=
  { d with
    riffle := { d.riffle with queue := d.riffle.queue.map fun j => { j with absent := true } }
    spring := { d.spring with closing := d.spring.closing.map fun j => { j with absent := true } }
    part := { d.part with stages := d.part.stages.filter fun i => !(i.page == 9) } }

end Sys2Proof.Machine
end

