-- ==== Sys2Proof/Machine/Eddy.lean ====
section
/-! DEFINITION. Eddy (chapter 07): model headers and trees (R141–R146), the ordered sum and its residue (R150, R151),
score entries (R153, R154), alarms (R155), staging, validation, swaps and memory in use (R157–R164). -/

namespace Sys2Proof.Machine

/-- The model header in a block of the model memory (R141, R144). -/
def hdrAt (m : Mem) (block : Nat) : ModelHdr :=
  let b := 128 * block
  { depth := Mem.rdLE m (b + 5) 1, trees := Mem.rdLE m (b + 6) 2, id := Mem.rdLE m (b + 8) 4
    prog := Mem.rdLE m (b + 12) 4, nfeat := Mem.rdLE m (b + 16) 2, flags := Mem.rdLE m (b + 18) 2
    base := signed (Mem.rdLE m (b + 20) 4) 32, treeBase := Mem.rdLE m (b + 24) 4
    alarmHi := signed (Mem.rdLE m (b + 32) 4) 32, alarmLo := signed (Mem.rdLE m (b + 36) 4) 32
    alarmOn := Mem.rdLE m (b + 40) 1, alarmOff := Mem.rdLE m (b + 41) 1, engine := Mem.rdLE m (b + 42) 2 }

/-- Bytes of one tree slot (R142). -/
def ModelHdr.slotBytes (h : ModelHdr) : Nat := 5 * 2 ^ h.depth

/-- One walk of a tree (R146): `lvls` levels from node `k`, nodes at `nodes`, against the 256 feature words. -/
def treeWalk (m : Mem) (nodes : Nat) (feat : List Nat) (nfeat : Nat) : Nat → Nat → Nat
  | 0, k => k
  | lvl + 1, k =>
    let nd := Mem.rdLE m (nodes + 3 * k) 3
    let ix := nd / 65536
    let w := if ix < nfeat then feat.getD ix 0x8007 else 0x8007
    let right := if 0x8000 ≤ w then nd / 32768 % 2 else if nd % 32768 < w then 1 else 0
    treeWalk m nodes feat nfeat lvl (2 * k + 1 + right)

/-- The leaf of tree `i` of a model for a feature vector (R142, R146). -/
def treeLeaf (m : Mem) (h : ModelHdr) (feat : List Nat) (nfeat i : Nat) : Int :=
  let base := h.treeBase + i * h.slotBytes
  let k := treeWalk m (base + 2 ^ (h.depth + 1)) feat nfeat h.depth 0
  signed (Mem.rdLE m (base + 2 * (k - (2 ^ h.depth - 1))) 2) 16

/-- sat_add32 of R150 with its sat flag. -/
def satAdd (a x : Int) (sat : Bool) : Int × Bool :=
  let y := a + x
  if 0x7FFFFFFF < y then (0x7FFFFFFF, true) else if y < -0x7FFFFFFF then (-0x7FFFFFFF, true) else (y, sat)

/-- The ordered sum of R150 over leaves, and R151's residue computed beside it. -/
def orderedSum (base : Int) (leaves : List Int) : Int × Nat × Bool :=
  leaves.foldl (fun r x =>
    let (a, sat) := satAdd r.1 x r.2.2
    (a, (r.2.1 + (x % 7).toNat) % 7, sat)) (base, (base % 7).toNat, false)

/-- A model's sum over its trees in ascending index (R150). -/
def modelSum (m : Mem) (h : ModelHdr) (feat : List Nat) (nfeat : Nat) : Int × Nat × Bool :=
  orderedSum h.base ((List.range h.trees).map (treeLeaf m h feat nfeat))

/-! ### Slots -/

/-- Address of a slot's register block (R166). -/
def slotAddr (s : Nat) : Nat := 0x10080 + 0x20 * s
/-- RESIDENT. -/
def Die.edResident (d : Die) (s : Nat) : Bool := d.part.bit (slotAddr s) 0
/-- OLD_BUSY. -/
def Die.edOldBusy (d : Die) (s : Nat) : Bool := d.part.bit (slotAddr s) 1
/-- STAGE: 0 IDLE, 1 VALIDATING, 2 STAGED, 3 ARMED_LOAD, 4 ARMED_UNLOAD. -/
def Die.edStage (d : Die) (s : Nat) : Nat := d.part.fld (slotAddr s) 4 3
/-- The header block in force of a slot (R157). -/
def Die.edForce (d : Die) (s : Nat) : Nat := 2 * s + d.part.fld (slotAddr s) 7 1
/-- The staging header block of a slot (R157). -/
def Die.edStaging (d : Die) (s : Nat) : Nat := 2 * s + (1 - d.part.fld (slotAddr s) 7 1)
/-- The model in force in a slot. -/
def Die.edModel (d : Die) (s : Nat) : Option ModelHdr :=
  if d.edResident s then some (hdrAt d.eddy.mem (d.edForce s)) else none
/-- The staging state set. -/
def Die.edSetStage (d : Die) (s v : Nat) : Die := d.onPart fun p => p.setFld (slotAddr s) 4 3 v

/-- The tree regions in use of a slot (R161): in force, OLD_BUSY, and staged (STAGED, ARMED_LOAD or VALIDATING); `own`
leaves the slot's own staging side out. -/
def Die.edRegions (d : Die) (s : Nat) (own : Bool) : List (Nat × Nat) :=
  let reg (h : ModelHdr) : Nat × Nat := (h.treeBase, h.trees * h.slotBytes)
  (match d.edModel s with | some h => [reg h] | none => []) ++
  (match sget none d.eddy.old s with | some o => [reg o.hdr] | none => []) ++
  (if !own && decide (1 ≤ d.edStage s ∧ d.edStage s ≤ 3) then [reg (hdrAt d.eddy.mem (d.edStaging s))] else [])

/-- Whether a byte of model memory is in use (R161). -/
def Die.edInUse (d : Die) (a : Nat) : Bool :=
  (d.part.hdr 0x10).lock ||
  (if a < 0x400 then
    (List.range 4).any fun s =>
      (d.edResident s && decide (a / 128 = d.edForce s)) ||
        ((d.edStage s == 1 || d.edStage s == 3) && decide (a / 128 = d.edStaging s))
   else (List.range 4).any fun s => (d.edRegions s false).any fun r => decide (r.1 ≤ a ∧ a < r.1 + r.2))

/-- Bytes stored into model memory; a write into the staging header of a STAGED slot loses its validation (R158). -/
def Die.edWrite (d : Die) (a : Nat) (bs : List Byte) : Die :=
  let d := { d with eddy := { d.eddy with mem := Mem.wrBytes d.eddy.mem a bs } }
  (List.range 4).foldl (fun d s =>
    if d.edStage s = 2 ∧ a < 128 * (d.edStaging s + 1) ∧ 128 * d.edStaging s < a + bs.length
    then d.edSetStage s 0 else d) d

/-! ### Cost -/

/-- N of a set of models (R148). -/
def nodesOf (ms : List (Option ModelHdr)) : Nat :=
  (ms.map fun m => match m with | some h => h.trees * h.depth | none => 0).sum

/-- LOAD of N nodes in ns, rounded up (R166). -/
def loadOf (n : Nat) : Nat := if n = 0 then 0 else ((n + 15) / 16 * 16 + 409) / 10

/-- NODES_FORCE, NODES_NEXT and their loads from the models in force and those the armed group would give. -/
def Die.edCosts (d : Die) : Die :=
  let force := (List.range 4).map d.edModel
  let next := match d.eddy.armed with
    | none => force
    | some g => (List.range 4).map fun s =>
        if g.loads.testBit s then some (hdrAt d.eddy.mem (d.edStaging s))
        else if g.unloads.testBit s then none else d.edModel s
  d.onPart fun p =>
    (((p.setNum 0x10058 (nodesOf force)).setNum 0x1005C (nodesOf next)).setFld 0x10060 0 16
      (loadOf (nodesOf force))).setFld 0x10064 0 16 (loadOf (nodesOf next))

/-! ### Validation -/

/-- The capacity for a depth (R143). -/
def treeCapacity (depth : Nat) : Nat := 1571840 / (5 * 2 ^ depth)

/-- The first node of a model whose feature index is not below NFEAT, as its byte address. -/
def badNode (m : Mem) (h : ModelHdr) : Option Nat :=
  (firstBad (h.trees * (2 ^ h.depth - 1)) fun i =>
    let a := h.treeBase + i / (2 ^ h.depth - 1) * h.slotBytes + 2 ^ (h.depth + 1) + 3 * (i % (2 ^ h.depth - 1))
    decide (h.nfeat ≤ Mem.rdLE m (a + 2) 1)).map fun i =>
      h.treeBase + i / (2 ^ h.depth - 1) * h.slotBytes + 2 ^ (h.depth + 1) + 3 * (i % (2 ^ h.depth - 1))

/-- The first reserved or padding byte of a model that is not zero, as its byte address. -/
def badReserved (m : Mem) (b : Nat) (h : ModelHdr) : Option Nat :=
  if 7 < h.flags then some (b + 0x12)
  else match (firstBad 80 fun i => decide (Mem.rdLE m (b + 0x2C + i) 1 ≠ 0)) with
  | some i => some (b + 0x2C + i)
  | none => (firstBad (3 * h.trees) fun i =>
      decide (Mem.rdLE m (h.treeBase + (i / 3 + 1) * h.slotBytes - 3 + i % 3) 1 ≠ 0)).map fun i =>
        h.treeBase + (i / 3 + 1) * h.slotBytes - 3 + i % 3

/-- The checks of R159 in table order: the error code and the byte address of the failing item. -/
def Die.edCheck (d : Die) (s : Nat) : Nat × Nat :=
  let m := d.eddy.mem
  let b := 128 * d.edStaging s
  let h := hdrAt m (d.edStaging s)
  let size := h.trees * h.slotBytes
  if Mem.rdBytes m b 4 ≠ [0x45, 0x44, 0x59, 0x31] then (1, b)
  else if Mem.rdLE m (b + 4) 1 ≠ 1 then (1, b + 4)
  else if h.depth < 4 ∨ 10 < h.depth then (2, b + 5)
  else if h.trees < 1 ∨ treeCapacity h.depth < h.trees then (2, b + 6)
  else if Mem.rdLE m (b + 0x1C) 4 ≠ 128 + size then (3, b + 0x1C)
  else if h.treeBase % 8 ≠ 0 ∨ h.treeBase < 0x400 ∨ 0x180000 < h.treeBase + size then (4, b + 0x18)
  else if (List.range 4).any (fun t => (d.edRegions t (t == s)).any fun r =>
      decide (r.1 < h.treeBase + size ∧ h.treeBase < r.1 + r.2)) then (5, b + 0x18)
  else if h.nfeat < 1 ∨ 256 < h.nfeat then (6, b + 0x10)
  else match badNode m h with
  | some a => (6, a)
  | none =>
  match badReserved m b h with
  | some a => (7, a)
  | none =>
    if h.flags.testBit 0 && h.flags.testBit 1 && decide (h.alarmHi < h.alarmLo) then (8, b + 0x24)
    else if h.flags.testBit 2 && decide (639 < h.engine ∧ h.engine ≠ 0xFFFF) then (8, b + 0x2A)
    else if Mem.rdLE m (b + 0x14) 4 = 0x80000000 then (9, b + 0x14)
    else if (crc32 (Mem.rdBytes m b 0x7C ++ Mem.rdBytes m h.treeBase size)).toNat ≠ Mem.rdLE m (b + 0x7C) 4
    then (10, b + 0x7C)
    else (0, 0)

/-- STAT.VALIDATING. -/
def Die.edValidating (d : Die) : Bool := d.part.bit 0x10044 17

/-- CTL.VALIDATE of slot `s` (R158, R159): refused while a validation runs, from an armed stage, or while LOCK is 1. -/
def Die.edValidate (d : Die) (s : Nat) (w : W32) : Die :=
  if d.edValidating || decide (2 < d.edStage s) || (d.part.hdr 0x10).lock then
    d.onPart fun p => p.accessErr 0x10 0x10040 w true
  else (d.edSetStage s 1).onPart fun p => (p.setBit 0x10044 17 true).setFld 0x10044 18 2 s

/-- The memory identifier of a 64-bit word of the model memory (R163): 1 for the header blocks, 0 for the tree area. -/
def edIdent (word : Nat) : Nat := if word < 0x80 then 1 else 0

/-- The running validation ends (R159): STAGED, or IDLE with VAL_ERR, VAL_SLOT and VAL_FAIL. `word` is the 64-bit word
whose check result `ecc` gives. -/
def Die.edValidated (d : Die) (word : Nat) (ecc : Ecc) : Die :=
  if !d.edValidating then d
  else
    let s := d.part.fld 0x10044 18 2
    let (ecc, p) := d.part.eccRead 0x10 word (edIdent word) ecc 2
    let (err, addr) := if ecc = .ue then (0x0B, 8 * word) else d.edCheck s
    let d := { d with part := (p.setBit 0x10044 17 false).setFld 0x10044 24 8 err }
    if err = 0 then d.edSetStage s 2
    else (d.edSetStage s 0).onPart fun p => p.raise 0x10 18
      { unit := s, opCode := 2, detail := leBytes 1 err ++ leBytes 1 s ++ leBytes 4 addr }

/-! ### Swaps -/

/-- CTL.SWAP_ARM (R160): the group is armed whole or refused whole. -/
def Die.edArm (d : Die) (w : W32) : Die :=
  let ld := bitsOf w.toNat 4 4
  let ul := bitsOf w.toNat 8 4
  let i := d.part.num64 0x10048
  let bad := wbit w 1 || decide (ld &&& ul ≠ 0) || decide (ld + ul = 0) || d.part.bit 0x10044 16 ||
    (d.part.hdr 0x10).lock || (decide (i ≠ 0) && decide (i ≤ d.spring.window.index)) ||
    (List.range 4).any fun s =>
      (ld.testBit s && (d.edStage s != 2 || d.edOldBusy s)) ||
        (ul.testBit s && (d.edStage s != 0 || !d.edResident s || d.edOldBusy s))
  if bad then d.onPart fun p => p.accessErr 0x10 0x10040 w true
  else
    let d := (List.range 4).foldl (fun d s =>
      if ld.testBit s then d.edSetStage s 3 else if ul.testBit s then d.edSetStage s 4 else d) d
    let d := { d with eddy := { d.eddy with armed := some ⟨i, ld, ul⟩ }, part := d.part.setBit 0x10044 16 true }
    d.edCosts

/-- DRAIN cancels the armed group (R158, R160). -/
def Die.edCancel (d : Die) : Die :=
  match d.eddy.armed with
  | none => d
  | some g =>
    let d := (List.range 4).foldl (fun d s =>
      if g.loads.testBit s then d.edSetStage s 2 else if g.unloads.testBit s then d.edSetStage s 0 else d) d
    { d with eddy := { d.eddy with armed := none }, part := d.part.setBit 0x10044 16 false }.edCosts

/-- One slot at the boundary of an armed swap (R158): its former model, if any, becomes OLD_BUSY until the window
`closed` there is delivered, and its alarm machine takes SWAP (R155). DESIGN CHOICE (log entry 186): a window of the former
model scored after the boundary acts on the alarm state that SWAP has left. -/
def Die.edSwapSlot (d : Die) (s : Nat) (load : Bool) (index : Nat) (closed : Option Nat) : Die :=
  let old : Option OldModel := match d.edModel s, closed with
    | some h, some c => some ⟨h, c⟩
    | _, _ => none
  let a := slotAddr s
  let broken := d.part.bit a 2
  let p := (d.part.setBit a 1 old.isSome).setBit a 0 load
  let p := (((p.setBit a 2 false).setBit a 3 false).setFld a 4 3 0).setFld a 8 8 0
  let p := if load then p.setFld a 7 1 (1 - p.fld a 7 1) else p
  let d := { d with
    part := p
    eddy := { d.eddy with
      old := sput none d.eddy.old s old, since := sput 0 d.eddy.since s index
      oldBroken := sput false d.eddy.oldBroken s broken, fresh := sput false d.eddy.fresh s load } }
  let h := d.edModel s
  d.onPart fun p =>
    let p := p.setNum (a + 4) (match h with | some h => h.id | none => 0)
    let p := p.setNum (a + 8) (match h with | some h => h.prog | none => 0)
    p.setNum (a + 0xC) (match h with | some h => h.depth % 16 + 65536 * h.trees | none => 0)

/-- The armed group taken at the boundary that opens window `index` (R158, R160). -/
def Die.edBoundary (d : Die) (index : Nat) (closed : Option Nat) : Die :=
  match d.eddy.armed with
  | none => d
  | some g =>
    if g.index = 0 ∨ g.index ≤ index then
      let d := (List.range 4).foldl (fun d s =>
        if g.loads.testBit s then d.edSwapSlot s true index closed
        else if g.unloads.testBit s then d.edSwapSlot s false index closed else d) d
      { d with
        eddy := { d.eddy with armed := none }
        part := (d.part.setBit 0x10044 16 false).setNum64 0x10050 index }.edCosts
    else d

/-- The models that score the window closed last (R21, R153), with the SWAPPED mark of its slots (R154). -/
def Die.edLatch (d : Die) : Die :=
  match d.spring.closing.reverse with
  | [] => d
  | j :: js =>
    { d with
      spring := { d.spring with closing := js.reverse ++
        [{ j with models := (List.range 4).map d.edModel
                  swapped := (List.range 4).map fun s => sget false d.eddy.fresh s }] }
      eddy := { d.eddy with fresh := [] } }

/-! ### Scoring -/

/-- The model of a slot that scores a window. -/
def WinJob.model (j : WinJob) (s : Nat) : Option ModelHdr := (j.models[s]?).join

/-- Whether window `j` is one that the former model of a slot scores. -/
def Die.edFormer (d : Die) (j : WinJob) (s : Nat) : Bool := decide (j.index < sget 0 d.eddy.since s)

/-- Whether the model that scores window `j` in a slot is broken (R164). -/
def Die.edBroken (d : Die) (j : WinJob) (s : Nat) : Bool :=
  if d.edFormer j s then sget false d.eddy.oldBroken s else d.part.bit (slotAddr s) 2

/-- The NO_SCORE reason of a slot, first failing in table order (R153), or 0. DESIGN CHOICE (log entry 185): a vector that R152
takes keeps to that order too, so a MISMATCH goes before its BACKLOG. -/
def Die.edReason (d : Die) (j : WinJob) (s : Nat) (h : ModelHdr) : Nat :=
  if j.features.isNone || !j.eddyOk then 1
  else if j.progId ≠ h.prog then 2
  else if j.taken then 3
  else if d.edBroken j s then 4 else 0

/-- Whether some slot is to score a window. -/
def Die.edScores (d : Die) (j : WinJob) : Bool :=
  (List.range 4).any fun s => match j.model s with
    | none => false
    | some h => d.edReason j s h == 0

/-- One slot's part of a delivered window. -/
structure SlotEntry where
  bytes : List Byte
  scored : Bool := false
  late : Bool := false
  valid : Bool := false
  alarm : Bool := false
  residue : Nat := 0
  mark : Bool := false
  score : Nat := 0x80000000
  request : Option Nat := none
  deriving DecidableEq, Repr

/-- The bytes of a score entry (R114). -/
def scoreBytes (s flags res depth id score trees complete : Nat) : List Byte :=
  leBytes 1 s ++ leBytes 1 flags ++ leBytes 1 res ++ leBytes 1 depth ++ leBytes 4 id ++ leBytes 4 score ++
    leBytes 2 trees ++ [0, 0] ++ leBytes 4 complete

/-- The alarm machine of a slot after a window (R155): `side` is 1 above ALARM_HI, 2 below ALARM_LO, 0 inside, 3 NONE.
The answer gives the observation request of R156. -/
def Die.edAlarm (d : Die) (j : WinJob) (s : Nat) (h : ModelHdr) (score side : Nat) : Option Nat × Die :=
  let a := slotAddr s
  let run := d.part.fld a 8 8
  let setRun (n : Nat) (d : Die) : Die := d.onPart fun p => p.setFld a 8 8 n
  if d.part.bit a 3 then
    if side = 3 then (none, d)
    else if side = 0 then
      if h.alarmOff ≤ run + 1 then (none, (setRun 0 d).onPart fun p => p.setBit a 3 false)
      else (none, setRun (run + 1) d)
    else (none, setRun 0 d)
  else
    if side = 3 then (none, d)
    else if side = 0 then (none, setRun 0 d)
    else if h.alarmOn ≤ run + 1 then
      let d := (setRun 0 d).onPart fun p => (p.setBit a 3 true).raise 0x10 16
        { unit := s, opCode := 1
          detail := leBytes 1 s ++ leBytes 1 (side - 1) ++ leBytes 4 score ++
            leBytes 4 (twos (if side = 1 then h.alarmHi else h.alarmLo) 32) ++ leBytes 4 h.id ++ leBytes 4 j.index }
      (if h.flags.testBit 2 then some h.engine else none, d)
    else (none, setRun (run + 1) d)

/-- The LAST registers of a slot after a delivered entry (R154). -/
def Die.edLast (d : Die) (j : WinJob) (s flags res reason score : Nat) : Die :=
  let a := slotAddr s
  d.onPart fun p => ((p.setNum (a + 0x10) score).setNum (a + 0x14) (flags + 256 * res + 8192 * reason)).setNum64
    (a + 0x18) j.index

/-- A NO_SCORE entry of a slot (R153): counted by its reason; PROG_MISMATCH is raised for reason 2. -/
def Die.edNoScore (d : Die) (j : WinJob) (s : Nat) (h : ModelHdr) (reason : Nat) : SlotEntry × Die :=
  let d := d.onPart fun p => p.inc (0x1006C + 4 * (reason - 1))
  let d := if reason = 2 then d.onPart fun p => p.raise 0x10 17
      { unit := s, opCode := 1
        detail := leBytes 1 s ++ leBytes 4 j.progId ++ leBytes 4 h.prog ++ leBytes 4 j.index }
    else d
  let al := d.part.bit (slotAddr s) 3
  let flags := 1 + (if al then 16 else 0) + (if j.swapped.getD s false then 32 else 0)
  ({ bytes := scoreBytes s flags 0 h.depth h.id 0x80000000 h.trees 0xFFFFFFFF, valid := true, alarm := al },
   d.edLast j s flags 0 reason 0x80000000)

/-- A slot scored (R150, R151, R154, R155), complete `t` ns after the close; `due` is the Eddy deadline instant. An injected SAT
clamps the sum at its upper limit (log entry 187). -/
def Die.edScore (d : Die) (j : WinJob) (s : Nat) (h : ModelHdr) (ws : List Nat) (t due : Nat) : SlotEntry × Die :=
  let (acc, res0, sat) := modelSum d.eddy.mem h ws 256
  let (clamp, p) := d.part.takeInject 0x10 5
  let acc := if clamp then 0x7FFFFFFF else acc
  let sat := sat || clamp
  let (inj, p) := if sat then (false, p) else p.takeInject 0x10 4
  let res := if inj then (res0 + 1) % 7 else res0
  let score := twos acc 32
  let bad := !sat && decide ((acc % 7).toNat ≠ res)
  let p := if sat then p.raise 0x10 5 { unit := s, opCode := 1, injected := clamp, detail := leBytes 2 s } else p
  let p := if bad then p.raise 0x10 4
      { unit := s, opCode := 1, injected := inj
        detail := leBytes 4 s ++ leBytes 1 res ++ leBytes 1 (acc % 7).toNat } else p
  let side := if bad then 3
    else if h.flags.testBit 0 && decide (h.alarmHi < acc) then 1
    else if h.flags.testBit 1 && decide (acc < h.alarmLo) then 2 else 0
  let (req, d) := { d with part := p }.edAlarm j s h score side
  let al := d.part.bit (slotAddr s) 3
  let late := decide (due < j.close + t)
  let flags := 1 + (if late then 2 else 0) + (if sat then 4 else 0) + (if bad then 8 else 0) +
    (if al then 16 else 0) + (if j.swapped.getD s false then 32 else 0)
  ({ bytes := scoreBytes s flags res h.depth h.id score h.trees t, scored := true, late := late, valid := true
     alarm := al, residue := res, mark := sat || bad, score := score, request := req },
   d.edLast j s flags res 0 score)

/-- A slot's entry for window `j` (R153): `ecc` is the check result of the model read at 64-bit word `word`, which counts only
while the slot is scored. -/
def Die.edSlot (d : Die) (j : WinJob) (due s t word : Nat) (ecc : Ecc) : SlotEntry × Die :=
  match j.model s with
  | none => ({ bytes := scoreBytes s 0 0 0 0 0 0 0 }, d)
  | some h =>
    match d.edReason j s h with
    | 0 =>
      let (e, p) := d.part.eccRead 0x10 word (edIdent word) ecc 1
      let d := { d with part := p }
      if e = .ue then
        let d := if d.edFormer j s then d else d.onPart fun p => (p.setBit (slotAddr s) 2 true).raise 0x10 20
          { unit := s, opCode := 1, detail := leBytes 1 s ++ leBytes 4 h.id ++ leBytes 4 word }
        d.edNoScore j s h 4
      else d.edScore j s h (j.features.getD []) t due
    | r + 1 => d.edNoScore j s h (r + 1)

/-- OLD_BUSY cleared for the models that have finished window `index` (R158). -/
def Die.edFinished (d : Die) (index : Nat) : Die :=
  (List.range 4).foldl (fun d s => match sget none d.eddy.old s with
    | some o => if o.window = index then
        { d with eddy := { d.eddy with old := sput none d.eddy.old s none }
                 part := d.part.setBit (slotAddr s) 1 false }
      else d
    | none => d) d

/-- The scoring stage of a window begins (R87); a window opened before a tracked length switch keeps the deadline of
its own schedule (R88). -/
def Die.edStart (d : Die) (j : WinJob) : Die :=
  let old : Option Nat := match d.eddy.oldDeadline with
    | some (base, n) => if j.start < base then some n else none
    | none => none
  d.onPart fun p =>
    match old with
    | none => p.stageStart 0x10 0 0 1 p.now
    | some n =>
      let h := p.hdr 0x10
      let q := (p.setHdr 0x10 { h with deadline := BitVec.ofNat 32 n }).stageStart 0x10 0 0 1 p.now
      q.modHdr 0x10 fun x => { x with deadline := h.deadline }

/-- A vector taken in by Eddy (R152, R165): ready while the page is not ACTIVE, it is absent to every slot; a fifth
queued vector has the oldest not begun taken as NO_SCORE BACKLOG. DESIGN CHOICE (log entry 185): a vector that no slot will
score holds one of the four places too, and may be the one taken. -/
def Die.edTake (d : Die) (j : WinJob) : Die :=
  let j := { j with eddyOk := d.part.active 0x10 }
  let j := { j with staged := d.edScores j }
  let d := if j.staged then d.edStart j else d
  let q := d.eddy.queue ++ [j]
  let d := { d with eddy := { d.eddy with queue := q } }
  if 4 < (q.filter fun x => !x.taken).length then
    match secondIdx (fun x : WinJob => !x.taken) q with
    | none => d
    | some k => match q[k]? with
      | none => d
      | some x =>
        let n := ((q.take k).filter fun y => y.staged).length
        { d with
          eddy := { d.eddy with queue := q.set k { x with taken := true, staged := false } }
          part := ((if x.staged then d.part.stageDropNth 0x10 0 n else d.part).inc 0x10068).raise 0x10 19
            { opCode := 1, detail := leBytes 8 x.index } }
  else d

end Sys2Proof.Machine
end

