-- ==== Sys2Proof/Machine/GaugeGen.lean ====
section
/-! DEFINITION. Gauge's operand generator (R168–R171) and its reference unit (R173). -/

namespace Sys2Proof.Machine

/-- One round of Philox4x32 (R169; the multipliers are those of the published generator, log entry 12). -/
def philoxRound (c : Nat × Nat × Nat × Nat) (k0 k1 : Nat) : Nat × Nat × Nat × Nat :=
  let p0 := 0xD2511F53 * c.1
  let p1 := 0xCD9E8D57 * c.2.2.1
  ((p1 / 4294967296) ^^^ c.2.1 ^^^ k0, p1 % 4294967296, (p0 / 4294967296) ^^^ c.2.2.2 ^^^ k1, p0 % 4294967296)

/-- `n` rounds with the key advanced between them (R169). -/
def philoxRounds : Nat → Nat × Nat × Nat × Nat → Nat → Nat → Nat × Nat × Nat × Nat
  | 0, c, _, _ => c
  | n + 1, c, k0, k1 =>
    philoxRounds n (philoxRound c k0 k1) ((k0 + 0x9E3779B9) % 4294967296) ((k1 + 0xBB67AE85) % 4294967296)

/-- What fixes a probe's operands (R169). -/
structure GenKey where
  seed : Nat
  gdid : Nat
  seq : Nat
  fmt : Nat
  random : Bool
  deriving DecidableEq, Repr

/-- The four words of a generator call (R169): `i4` is i[9:2]. -/
def GenKey.block (g : GenKey) (stream i4 : Nat) : Nat × Nat × Nat × Nat :=
  philoxRounds 10
    (i4, g.seq % 4294967296, stream % 16 * 65536 + g.seq / 4294967296 % 65536,
      (if g.random then 8 else 0) + g.fmt % 8)
    ((g.seed % 4294967296) ^^^ (g.gdid % 4294967296)) (g.seed / 4294967296 % 4294967296)

/-- word(stream, i) of R169. -/
def GenKey.word (g : GenKey) (stream i : Nat) : Nat :=
  let b := g.block stream (i / 4 % 256)
  match i % 4 with
  | 0 => b.1 | 1 => b.2.1 | 2 => b.2.2.1 | _ => b.2.2.2

/-- Exact-set ranges of a format: M, emin, emax (table Probe formats). -/
def exactRange (fmt : Nat) : Nat × Int × Int :=
  match fmt with
  | 0 => (15, -6, 4) | 1 => (7, -14, 12) | 2 => (255, -50, 50) | _ => (1023, -40, 40)

/-- The significand of an exact-set operand (R170); for INT8 the operand itself. -/
def GenKey.sig (g : GenKey) (stream i : Nat) : Int :=
  let w := g.word stream i
  if g.fmt = 4 then signed w 8
  else
    let m := (exactRange g.fmt).1
    ((w % 65536 * (2 * m + 1) / 65536 : Nat) : Int) - m

/-- The exponent of row r of A (`i` = r) or column c of B (`i` = 16 + c) (R170). -/
def GenKey.exp (g : GenKey) (i : Nat) : Int :=
  if g.fmt = 4 then 0
  else
    let (_, lo, hi) := exactRange g.fmt
    lo + ((g.word 2 i % 65536 * (hi - lo + 1).toNat / 65536 : Nat) : Int)

/-- Exponent bias and fraction bits of a format. -/
def floatShape (fmt : Nat) : Int × Nat :=
  match fmt with
  | 0 => (7, 3) | 1 => (15, 2) | 2 => (127, 7) | _ => (127, 23)

/-- Operand width in bits (table Probe formats). -/
def fmtBits (fmt : Nat) : Nat := match fmt with | 2 => 16 | 3 => 32 | _ => 8

/-- The exact encoding of m × 2^e in a binary format of the given width, bias and fraction bits; a zero is +0 (R170). -/
def encodeFloat (bits : Nat) (bias : Int) (man : Nat) (m e : Int) : Nat :=
  if m = 0 then 0
  else
    let a := m.natAbs
    let k := Nat.log2 a
    let f := if k ≤ man then (a - 2 ^ k) * 2 ^ (man - k) else (a - 2 ^ k) / 2 ^ (k - man)
    (if m < 0 then 2 ^ (bits - 1) else 0) + ((k : Int) + e + bias).toNat * 2 ^ man + f

/-- A full-random operand (R171): NaN and infinity are replaced by the largest finite value of the same sign. -/
def randomOperand (fmt w : Nat) : Nat :=
  let x := w % 2 ^ fmtBits fmt
  let h := 2 ^ (fmtBits fmt - 1)
  let y := x % h
  let s := x - y
  match fmt with
  | 0 => if y = 0x7F then s + 0x7E else x
  | 1 => if 0x7C ≤ y then s + 0x7B else x
  | 2 => if 0x7F80 ≤ y then s + 0x7F7F else x
  | 3 => if 0x7F800000 ≤ y then s + 0x7F7FFFFF else x
  | _ => x

/-- An encoded operand of stream 0 or 1 (R169–R171); `x` is the index of its row or column exponent. -/
def GenKey.operand (g : GenKey) (stream i x : Nat) : Nat :=
  if g.fmt = 4 then g.word stream i % 256
  else if g.random then randomOperand g.fmt (g.word stream i)
  else
    let (bias, man) := floatShape g.fmt
    encodeFloat (fmtBits g.fmt) bias man (g.sig stream i) (g.exp x)

/-- The encoded A of a probe, row-major (R169). -/
def GenKey.tileA (g : GenKey) : List Nat := (List.range 256).map fun i => g.operand 0 i (i / 16)

/-- The encoded B of a probe, row-major (R169). -/
def GenKey.tileB (g : GenKey) : List Nat := (List.range 256).map fun i => g.operand 1 i (16 + i % 16)

/-- The reference unit's C (R170, R173): each element Σ m × m' with its exponent, as FP32, or as INT32 for INT8. -/
def GenKey.tileC (g : GenKey) : List Nat :=
  (List.range 256).map fun i =>
    let r := i / 16
    let c := i % 16
    let s := ((List.range 16).map fun k => g.sig 0 (16 * r + k) * g.sig 1 (16 * k + c)).sum
    if g.fmt = 4 then twos s 32 else encodeFloat 32 127 23 s (g.exp r + g.exp (16 + c))

end Sys2Proof.Machine
end

