-- ==== Sys2Proof/Machine/GaugeBase.lean ====
section
/-! DEFINITION. The base of Gauge (chapter 08): engine registers, records and their rate limit (R192), level changes
(R181), conditions and history (R182, R183), choice of peers (R180), credit (R176), the probes waiting, self-test
triggers (R187, R188), and the dispute probe's account (R212). -/

namespace Sys2Proof.Machine

/-- The GAUGE_ENG page of an engine (R35). -/
def engPage (e : Nat) : Nat := 0x020 + e / 64
/-- The byte offset of an engine's slot (R35). -/
def engAddr (e : Nat) : Nat := engPage e * 0x1000 + 0x40 + (e % 64) * 0x20
/-- Whether an engine number exists (R36). -/
def engOk (e : Nat) : Bool := decide (e < 640)
/-- Whether an engine is connected (R419). -/
def Die.engPresent (d : Die) (e : Nat) : Bool := engOk e && !sget false d.ties.engAbsent e
/-- Observation level. -/
def Die.engLevel (d : Die) (e : Nat) : Nat := d.part.fld (engAddr e + 4) 0 2
/-- PINNED. -/
def Die.engPinned (d : Die) (e : Nat) : Bool := d.part.bit (engAddr e + 4) 2
/-- The die with its Gauge state changed. -/
def Die.onGauge (d : Die) (f : GaugeState → GaugeState) : Die := { d with gauge := f d.gauge }
/-- An engine's schedule state. -/
def Die.eng (d : Die) (e : Nat) : EngState := sget {} d.gauge.engs e
/-- An engine's schedule state set. -/
def Die.setEng (d : Die) (e : Nat) (x : EngState) : Die :=
  d.onGauge fun g => { g with engs := sput {} g.engs e x }

/-- The temperature of an engine's nearest point (R419). -/
def Die.engTemp (d : Die) (e : Nat) : W16 := d.part.tempAt (sget 0 d.ties.nearT e)
/-- The voltage of an engine's nearest point (R419). -/
def Die.engVolt (d : Die) (e : Nat) : W16 := d.part.voltAt (128 + sget 0 d.ties.nearV e)
/-- tbin of R95 for a temperature in 1/16 °C. -/
def tbinOf (t : W16) : Nat := min 7 (t.toInt / 256).toNat
/-- The present condition of an engine (R182). -/
def Die.engCond (d : Die) (e : Nat) : Cond :=
  { tbin := tbinOf (d.engTemp e), temp := d.engTemp e, volt := d.engVolt e
    load := d.part.fld (engAddr e + 0x1C) 8 8, level := d.engLevel e, point := d.part.fld 0x100 0 3 }

/-- A Gauge record, one for every occurrence on S1 up to 4,096 a second (R192); beyond, it is counted in
SUPPRESSED_COUNT and leaves a gap in the page's SEQ. ERR_MASK suppresses it (R45). -/
def Die.gaugeRaise (d : Die) (page bit : Nat) (a : RepArgs) : Die :=
  let sec := d.now / 1000000000
  let n := if d.gauge.rate.1 = sec then d.gauge.rate.2 else 0
  if wbit (d.part.hdr page).errMask bit then d.onPart fun p => p.setErr page bit a.unit
  else if 4096 ≤ n then
    d.onPart fun p => ((p.setErr page bit a.unit).modHdr page fun h => { h with seq := h.seq + 1 }).inc 0x180BC
  else (d.onGauge fun g => { g with rate := (sec, n + 1) }).onPart fun p => p.raiseEach page bit a

/-- What a Gauge record about engine `e` tags (R182). -/
def Cond.rep (c : Cond) (e op verdict : Nat) (detail : List Byte) : RepArgs :=
  { unit := e, opCode := op, op := some c.point, level := some c.level, verdict := verdict, load := some c.load
    cond := some (c.temp, c.volt), detail := detail }

/-! ### Levels -/

/-- A level change (R181): CLEAN_RUN zeroed, and LEVEL_CHANGE with its cause and the new level in force. A cause that
changes neither level nor PINNED changes nothing. -/
def Die.setLevel (d : Die) (e lvl cause op : Nat) (pinned : Bool) : Die :=
  let old := d.engLevel e
  if old = lvl ∧ d.engPinned e = pinned then d
  else
    let c := { d.engCond e with level := lvl }
    let a := engAddr e + 4
    (d.onPart fun p => ((p.setFld a 0 2 lvl).setBit a 2 pinned).setFld a 16 16 0).gaugeRaise (engPage e) 20
      (c.rep e op 0 (leBytes 1 old ++ leBytes 1 lvl ++ leBytes 1 cause ++ leBytes 1 (if pinned then 1 else 0)))

/-- A lift by one level, at most to 3 (R181). -/
def Die.liftLevel (d : Die) (e cause op : Nat) : Die :=
  d.setLevel e (min 3 (d.engLevel e + 1)) cause op (d.engPinned e)

/-- Eddy's observation request (R156): one engine, or every present one for 0xFFFF; no effect while PINNED. -/
def Die.eddyRequest (d : Die) (engine : Nat) : Die :=
  let es := if engine = 0xFFFF then List.range 640 else [engine]
  es.foldl (fun d e => if d.engPresent e && !d.engPinned e then d.liftLevel e 1 0 else d) d

/-! ### Verdict book-keeping of single probes -/

/-- A history entry updated (R182): PASSED or FAILED in the engine's bin, and LAST_TIME. -/
def Die.histUpdate (d : Die) (e tbin : Nat) (pass : Bool) : Die :=
  let a := (e * 8 + tbin) * 16
  d.onGauge fun g =>
    let m := g.hist
    let m := if pass then Mem.wrLE m a 4 (min 0xFFFFFFFF (Mem.rdLE m a 4 + 1))
      else Mem.wrLE m (a + 4) 2 (min 0xFFFF (Mem.rdLE m (a + 4) 2 + 1))
    { g with hist := Mem.wrLE m (a + 8) 8 d.now }

/-- One probe judged on an engine (R182, R196): its counts, history entry and the page's EVENT_COUNT. -/
def Die.probeJudged (d : Die) (e : Nat) (c : Cond) (pass : Bool) : Die :=
  let d := (d.histUpdate e c.tbin pass).onPart fun p => p.event (engPage e)
  if pass then d.onPart fun p => p.inc (engAddr e + 8)
  else d.onPart fun p => (p.inc (engAddr e + 0xC)).setNum64 (engAddr e + 0x14) d.now

/-! ### Schedules, credit and choice -/

/-- Whether an engine is one Gauge may probe now (R179, R196). -/
def Die.engProbed (d : Die) (e : Nat) : Bool :=
  d.engPresent e && d.part.active (engPage e) && d.part.bit (engAddr e) 0

/-- SLOT_NS of an engine's kind. -/
def Die.slotNs (d : Die) (e : Nat) : Nat :=
  max 1 (if e < 128 then d.part.fld 0x18088 0 16 else d.part.fld 0x18088 16 16)

/-- How far an engine's credit lies below its cap of 128 slots now, and how many of the parts it is counted in make one slot
(R176): BUDGET / (100,000 SLOT_NS) of a slot accrues in each ns. -/
def Die.creditShort (d : Die) (e : Nat) : Nat × Nat :=
  let x := d.eng e
  let u := 100000 * d.slotNs e
  let l := Nat.lcm (max 1 x.part) u
  (x.short * (l / max 1 x.part) - d.part.fld 0x18048 0 13 * (d.now - x.shortAt) * (l / u), l)

/-- Whether an engine holds credit for one slot (R176). A budget of 0 stops all probing. -/
def Die.hasCredit (d : Die) (e : Nat) : Bool :=
  decide (0 < d.part.fld 0x18048 0 13 ∧ (d.creditShort e).1 ≤ 127 * (d.creditShort e).2)

/-- One slot's credit spent (R176). -/
def Die.spend (d : Die) (e : Nat) : Die :=
  let (short, l) := d.creditShort e
  d.setEng e { d.eng e with short := short + l, part := l, shortAt := d.now }

/-- Every engine's credit reckoned under the budget and the slot so far, before BUDGET or SLOT_NS changes (R176). -/
def Die.settleCredit (d : Die) : Die :=
  d.gauge.engs.foldl (fun d e =>
    let (short, l) := d.creditShort e.1
    d.setEng e.1 { d.eng e.1 with short := short, part := if short = 0 then 1 else l, shortAt := d.now }) d

/-- The scheduled interval of an engine in ns (R179), divided by COVER.BOOST in a bin not covered (R183). -/
def Die.interval (d : Die) (e : Nat) : Nat :=
  let ms := d.part.num (0x18050 + 4 * d.engLevel e) * 1000000
  let passed := Mem.rdLE d.gauge.hist ((e * 8 + tbinOf (d.engTemp e)) * 16) 4
  if passed < d.part.fld 0x18068 0 8 then ms / max 1 (d.part.fld 0x18068 8 4) else ms

/-- Formats enabled for an engine's kind (R168). -/
def Die.formats (d : Die) (e : Nat) : List Nat :=
  (List.range 5).filter fun f => d.part.bit 0x18084 (if e < 128 then f else 8 + f)

/-- The format at a rotation position. -/
def Die.formatAt (d : Die) (e pos : Nat) : Option Nat :=
  let fs := d.formats e
  if fs.isEmpty then none else fs[pos % fs.length]?

/-- Whether an engine has a self-test running or queued. -/
def Die.inSelfTest (d : Die) (e : Nat) : Bool :=
  (d.gauge.running ++ d.gauge.queue).any fun t => t.engine == e

/-- Whether an engine qualifies as peer or arbiter of `e`'s check (R180); `used` are the engines already in it. -/
def Die.peerOk (d : Die) (e : Nat) (used : List Nat) (q : Nat) : Bool :=
  d.engProbed q && d.part.bit (engAddr q) 1 && decide (d.engLevel q ≤ 2) && !d.inSelfTest q &&
    decide ((q < 128) = (e < 128)) && !used.contains q

/-- The next engine of a list after `last` that a test accepts, going round. -/
def nextAfter (es : List Nat) (last : Nat) (ok : Nat → Bool) : Option Nat :=
  match (es.filter fun q => decide (last < q)).find? ok with
  | some q => some q
  | none => es.find? ok

/-- The peer or arbiter chosen (R180): the lowest level first, then the next engine after the last one chosen. -/
def Die.choosePeer (d : Die) (e : Nat) (used : List Nat) : Option Nat × Die :=
  let es := if e < 128 then List.range 128 else (List.range 512).map (128 + ·)
  let last := if e < 128 then d.gauge.lastMatrix else d.gauge.lastVector
  let pick (l : Nat) := nextAfter es last fun q => d.peerOk e used q && d.engLevel q == l
  match (match pick 0 with
    | some q => some q
    | none => match pick 1 with
      | some q => some q
      | none => pick 2) with
  | none => (none, d)
  | some q => (some q, d.onGauge fun g => if e < 128 then { g with lastMatrix := q } else { g with lastVector := q })

/-! ### Checks -/

/-- The OP_CODE of a check's records (R192). -/
def Check.op (c : Check) : Nat :=
  match c.origin with
  | .scheduled => if c.tap.isSome then 6 else 1
  | .background => 2 | .selftest => 5 | .replay => 8 | .dispute => 3

/-- The engines in a check. -/
def Check.engines (c : Check) : List Nat :=
  c.e :: (match c.p with | some q => [q] | none => []) ++ (match c.a with | some q => [q] | none => [])

/-- The tap entries that neither a check nor the pattern of a self-test uses any longer are free (R175). -/
def Die.tapSweep (d : Die) : Die :=
  d.onGauge fun g =>
    { g with taps := g.taps.filter fun t =>
        (g.checks.any fun c => c.tap == some t.1 || c.src == some t.1) ||
          (g.running ++ g.queue).any fun x => match x.pattern with | some q => q.tap == some t.1 | none => false }

/-- A check removed, with its waiting probes. -/
def Die.dropCheck (d : Die) (id : Nat) : Die :=
  (d.onGauge fun g =>
    { g with checks := g.checks.filter fun c => c.id != id, waits := g.waits.filter fun w => w.check != id }).tapSweep

/-- A check replaced by its new form. -/
def Die.putCheck (d : Die) (c : Check) : Die :=
  d.onGauge fun g => { g with checks := g.checks.map fun x => if x.id = c.id then c else x }

/-- A probe asked for on an engine (R177). -/
def Die.ask (d : Die) (id : Nat) (r : Role) (e : Nat) : Die :=
  d.onGauge fun g => { g with waits := g.waits ++ [{ check := id, role := r, engine := e, asked := d.now }] }

/-- The DISPUTE_PROBE record and registers once every probed engine has been judged (R212). -/
def Die.disputeCheck (d : Die) : Die :=
  match d.gauge.dispute with
  | none => d
  | some x =>
    let d := d.onPart fun p => (p.setFld 0x8078 0 10 x.passed).setFld 0x8078 10 10 x.failed
    if x.waiting || !x.left.isEmpty then d
    else (d.onGauge fun g => { g with dispute := none }).onPart fun p =>
      ((p.setBit 0x8078 31 true).setBit 0x8044 5 false).raiseEach 8 22
        { opCode := 3
          detail := leBytes 2 x.tag ++ leBytes 2 x.probed ++ leBytes 2 x.passed ++ leBytes 2 x.failed ++
            leBytes 2 x.firstFail }

/-- One engine of the dispute probe judged: `res` is none when it could not be (R212). -/
def Die.disputeJudge (d : Die) (e : Nat) (res : Option Bool) : Die :=
  match d.gauge.dispute with
  | none => d
  | some x =>
    if x.left.contains e then
      let x := { x with left := x.left.erase e }
      let x := match res with
        | none => x
        | some true => { x with passed := x.passed + 1 }
        | some false => { x with failed := x.failed + 1, firstFail := if x.firstFail = 0xFFFF then e else x.firstFail }
      (d.onGauge fun g => { g with dispute := some x }).disputeCheck
    else d

/-- The account of a self-test in which one of its 64 probes has ended (R187, R189): `res` none is not judged. -/
def Die.testJudge (d : Die) (c : Check) (res : Option Bool) (noResult : Bool) : Die :=
  d.onGauge fun g => { g with running := g.running.map fun t =>
    if t.engine = c.owner then
      { t with
        judged := if res.isSome then t.judged + 1 else t.judged
        unjudged := if res.isNone then t.unjudged + 1 else t.unjudged
        exactFail := if res = some false ∧ !c.half then t.exactFail + 1 else t.exactFail
        replayFail := if res = some false ∧ c.half then t.replayFail + 1 else t.replayFail
        noResult := t.noResult || noResult }
    else t }

/-- A check that ends without judgement (R180, R189, R190). -/
def Die.endUnjudged (d : Die) (c : Check) : Die :=
  let d := d.dropCheck c.id
  match c.origin with
  | .selftest => d.testJudge c none false
  | .dispute => d.disputeJudge c.e none
  | .replay => d.onPart fun p => (p.setBit 0x18044 2 false).setFld 0x18044 3 2 2
  | _ => d

/-- ARB_NONE (R180): the probe is not judged and every engine in the check rises one level. A replay request changes
no level (R193). -/
def Die.arbNone (d : Die) (c : Check) : Die :=
  let d := d.onPart fun p => p.inc 0x180B0
  let d := d.gaugeRaise 0x18 18 ((d.engCond c.e).rep c.e c.op 0
    (leBytes 6 (c.seq.getD 0) ++ leBytes 2 c.e ++ leBytes 2 (c.p.getD 0xFFFF)))
  let d := if c.origin = .replay then d else c.engines.foldl (fun d e => d.liftLevel e 4 c.op) d
  d.endUnjudged c

/-- Whether an exact-set check is judged by the reference unit (R173): it is no replay of a self-test. -/
def Check.byRef (c : Check) : Bool := !c.random && c.expect.isNone

/-- A new check started: an exact-set probe on its engine, a replay of a self-test or of a request likewise, a
full-random probe on its engine and a peer (R173). -/
def Die.startCheck (d : Die) (c : Check) : Die :=
  let c := { c with id := d.gauge.nextId }
  let d := d.onGauge fun g => { g with nextId := g.nextId + 1, checks := g.checks ++ [c] }
  if c.random && c.expect.isNone && c.origin != .replay then
    let (q, d) := d.choosePeer c.e [c.e]
    match q with
    | none => d.arbNone c
    | some q => ((d.putCheck { c with p := some q }).ask c.id .main c.e).ask c.id .peer q
  else d.ask c.id .main c.e

/-- The generator inputs of a new probe (R172). -/
def Die.newCheck (d : Die) (o : Origin) (random : Bool) (e fmt : Nat) : Check :=
  { id := 0, origin := o, random := random, e := e, fmt := fmt, gdid := d.part.gdid, seed := d.part.num64 0x18074 }

/-- CTL.EXACT_EN with the reference unit good: exact-set probes may be issued (R179, R186). -/
def Die.exactOk (d : Die) : Bool := d.part.bit 0x18040 0 && d.part.bit 0x18044 0

/-! ### Self-test triggers -/

/-- RUNNING, QUEUED and the engines' bits after a change of the self-tests (R194, R196). -/
def Die.testBits (d : Die) (e : Nat) : Die :=
  d.onPart fun p =>
    let p := (p.setFld 0x18044 8 4 d.gauge.running.length).setFld 0x18044 16 7 d.gauge.queue.length
    (p.setBit (engAddr e + 4) 3 (d.gauge.running.any fun t => t.engine == e)).setBit (engAddr e + 4) 4
      (d.gauge.queue.any fun t => t.engine == e)

/-- A self-test trigger (R187, R188, R194): outside ACTIVE and ENABLING it is discarded; a trigger for an engine already
running or queued merges and sets ANOTHER; one that finds the queue full is dropped and lifts the engine to level 3. -/
def Die.trigger (d : Die) (t : SelfTest) : Die :=
  let st := d.part.pstate 0x18
  if st != .active && st != .enabling then d
  else if d.inSelfTest t.engine then
    d.onGauge fun g =>
      { g with
        running := g.running.map fun x =>
          if x.engine = t.engine then { x with another := true, dispute := x.dispute || t.dispute } else x
        queue := g.queue.map fun x =>
          if x.engine = t.engine then { x with another := true, dispute := x.dispute || t.dispute } else x }
  else if 64 ≤ d.gauge.queue.length then
    let d := (d.onPart fun p => p.inc 0x180B4).gaugeRaise 0x18 19 ((d.engCond t.engine).rep t.engine 5 0
      (leBytes 2 t.engine))
    (d.setLevel t.engine 3 5 5 (d.engPinned t.engine)).disputeJudge t.engine none
  else
    let d := d.onGauge fun g => { g with queue := g.queue ++ [t] }
    (d.onPart fun p => p.stageStart 0x18 0 t.engine 5 t.start).testBits t.engine

/-- A dispute probe begun (R212): a self-test of the unit, or one probe on every present engine with PROBE_EN whose
page is ACTIVE, exact-set, or full-random while REF_OK is 0. -/
def Die.disputeRun (d : Die) : Die :=
  match d.gauge.dispute with
  | none => d
  | some x =>
    if !x.waiting || !d.part.active 0x18 then d
    else
      let es := if x.unit = 0x3FF then (List.range 640).filter d.engProbed
        else if d.engPresent x.unit && d.part.active (engPage x.unit) then [x.unit] else []
      let d := d.onGauge fun g =>
        { g with dispute := some { x with waiting := false, left := es, probed := es.length } }
      let d := if x.unit = 0x3FF then
          es.foldl (fun d e => match d.formatAt e 0 with
            | none => d.disputeJudge e none
            | some f => d.startCheck (d.newCheck .dispute (!d.part.bit 0x18044 0) e f)) d
        else es.foldl (fun d e => d.trigger { engine := e, trigger := 2, start := d.now, dispute := true }) d
      d.disputeCheck

/-- A dispute probe requested by Oxbow (R212): it replaces a waiting or running one. -/
def Die.disputeAsk (d : Die) (tag unit : Nat) : Die :=
  let d := d.onPart fun p => (p.wr 0x8078 0).setBit 0x8044 5 true
  (d.onGauge fun g =>
    { g with
      dispute := some { tag := tag, unit := unit }
      checks := g.checks.filter fun c => c.origin != .dispute
      waits := g.waits.filter fun w => g.checks.all fun c => !(c.id == w.check && c.origin == .dispute) }).disputeRun

/-- A check of a self-test that cannot run as it was meant replaced by a full-random probe of the same test (R186, R187). -/
def Die.replaceCheck (d : Die) (c : Check) : Die :=
  (d.dropCheck c.id).startCheck { d.newCheck c.origin true c.e c.fmt with owner := c.owner, half := c.half }

/-- Whether a probe of a check is in flight. -/
def Die.inFlight (d : Die) (id : Nat) : Bool := d.gauge.probes.any fun w => w.check == id

/-- Every tap entry discarded (R175), with the tap replays that use them. DESIGN CHOICE (log entry 192): a self-test keeps no
pattern from a tap, and its replays of one that are not in flight become full-random. -/
def Die.discardTaps (d : Die) : Die :=
  let ids := (d.gauge.checks.filter fun c => c.tap.isSome).map Check.id
  let lost := d.gauge.checks.filter fun c => c.src.isSome && !d.inFlight c.id
  let drop (t : SelfTest) : SelfTest :=
    { t with pattern := match t.pattern with | some q => if q.tap.isSome then none else some q | none => none }
  let d := d.onGauge fun g =>
    { g with
      taps := [], tapMem := [], tapReq := []
      running := g.running.map drop, queue := g.queue.map drop
      checks := g.checks.filter fun c => !ids.contains c.id
      waits := g.waits.filter fun w => !ids.contains w.check }
  lost.foldl (fun d c => d.replaceCheck c) d

/-- A tap entry lost (R459): the check that compares with its captured C ends unjudged, and a self-test that replays its
operands keeps no pattern. -/
def Die.tapLost (d : Die) (t : Nat) : Die :=
  let mine := d.gauge.checks.filter fun c => c.tap == some t
  let lost := d.gauge.checks.filter fun c => c.src == some t && !d.inFlight c.id
  let drop (x : SelfTest) : SelfTest :=
    { x with pattern := match x.pattern with | some q => if q.tap = some t then none else some q | none => none }
  let d := d.onGauge fun g => { g with running := g.running.map drop, queue := g.queue.map drop }
  let d := mine.foldl (fun d c => d.endUnjudged c) d
  (lost.foldl (fun d c => d.replaceCheck c) d).tapSweep

end Sys2Proof.Machine
end

