-- ==== Sys2Proof/Machine/BoreLink.lean ====
section
/-! DEFINITION. Launching Bore events from a die (chapter 10): the next event of the die (R223), the three copies up its
pairs (R219, R222, R225). -/

namespace Sys2Proof.Machine

/-- BORE_PARTITION. -/
def Die.partition (d : Die) : Nat := d.part.fld 0x3048 0 16
/-- BORE_JOB_ID. -/
def Die.job (d : Die) : Nat := d.part.num 0x304C
/-- STAT.SIMPLEX. -/
def Die.simplex (d : Die) : Bool := d.part.bit 0x3044 3

/-- The die with its Bore state changed. -/
def Die.onBore (d : Die) (f : BoreState → BoreState) : Die := { d with bore := f d.bore }

/-- The copies that an upset has made differ, noted until the next comparison (R219). -/
def Die.upsetBy (d : Die) (x : UpsetDie) : Die := d.onBore fun b => { b with upset := b.upset ||| x.copies }

/-- The frame of a copy (R222): 40 bytes, of which the CRC covers the first 36. -/
def PairFrame.make (copy seq : Nat) (e : BoreEvent) : PairFrame :=
  { copy := copy, seq := seq, body := e
    crc := (crc32 (leBytes 1 0x5B ++ leBytes 1 copy ++ leBytes 2 seq ++ e.bytes)).toNat }

/-- The 40 bytes of a frame (R222). -/
def PairFrame.bytes (f : PairFrame) : List Byte :=
  leBytes 1 f.start ++ leBytes 1 f.copy ++ leBytes 2 f.seq ++ f.body.bytes ++ leBytes 4 f.crc

/-- Whether a frame received is whole (R222): its START byte and its CRC hold. -/
def PairFrame.ok (f : PairFrame) : Bool :=
  f.start == 0x5B && f.crc == (crc32 (leBytes 1 f.start ++ leBytes 1 f.copy ++ leBytes 2 f.seq ++ f.body.bytes)).toNat

/-- The copy a frame names: COPY [1:0]. -/
def PairFrame.field (f : PairFrame) : Nat := f.copy % 4

/-- A frame on each pair, one copy each, with that lane's LINK_SEQ (R222). -/
def Die.boreSend (d : Die) (e : BoreEvent) : Die :=
  (List.range 3).foldl (fun d c =>
    let n := sget 0 d.bore.txSeq c
    (d.onBore fun b => { b with txSeq := sput 0 b.txSeq c ((n + 1) % 65536) }).onPart fun p =>
      { p with out := p.out ++ [.boreFrame c (.make c n e)] }) d

/-! ### Three copies -/

/-- Copies up (R221). -/
def Die.upCopies (d : Die) : List Nat := (List.range 3).filter fun c => d.part.bit 0x3044 c

/-- A copy disagrees (R219–R221): counted, reported on its page with the majority value, and marked down at the limit. -/
def Die.copyDisagrees (d : Die) (page unit c maj : Nat) (inj : Bool) : Die :=
  let n := sget 0 d.bore.runs c + 1
  let d := (d.onBore fun b => { b with runs := sput 0 b.runs c n }).onPart fun p =>
    (p.inc (0x3070 + 4 * c)).raise page 7
      { unit := unit, injected := inj, detail := leBytes 1 c ++ [0, 0, 0] ++ leBytes 4 maj }
  if n < d.part.fld 0x3094 0 8 || !d.part.bit 0x3044 c then d
  else
    let d := d.onPart fun p => (p.setBit 0x3044 c false).raiseEach 3 17
      { detail := leBytes 1 c ++ leBytes 1 (min 255 n) }
    match d.upCopies with
    | [k] => d.onPart fun p => (p.setBit 0x3044 3 true).raiseEach 3 20 { detail := leBytes 1 k }
    | _ => d

/-- The first four bytes of a body, as the majority value of a VOTE record (log entry 25). -/
def BoreEvent.head (e : BoreEvent) : Nat := e.typ + 256 * e.qual + 65536 * e.scope + 16777216 * e.rsv

/-- NO_MAJORITY (R220, R240) on `path` 0, on the die, or 1, the pairs: `mask` are the copies that came whole. -/
def Die.noMajorityOf (d : Die) (path mask : Nat) (e : BoreEvent) : Die :=
  d.onPart fun p => (p.inc 0x307C).raiseEach 3 16
    { detail := leBytes 1 path ++ leBytes 1 mask ++ leBytes 1 e.typ ++ leBytes 2 e.seq ++ leBytes 4 e.source }

/-- The copies of Bore's own state, or of an event on its on-die broadcasts, compared in a handshake (R219–R221; log entry
197). Between handshakes the copies of the state are alike but for those an upset has hit; here the majority rewrites them,
and an armed injection of VOTE makes one agreeing copy differ (R47). The answer says whether a majority acts. -/
def Die.copiesVote (d : Die) (page unit : Nat) (e : BoreEvent) : Bool × Die :=
  let ups := d.upCopies
  let bad := d.bore.upset
  let d := d.onBore fun b => { b with upset := 0 }
  if ups.length ≤ 1 then (true, d)
  else
    let (inj, p) := d.part.takeInject page 7
    let d := { d with part := p }
    let hit := if inj then (ups.filter fun c => !bad.testBit c).getLast? else none
    let dis := ups.filter fun c => bad.testBit c || hit == some c
    if dis.isEmpty || (ups.length == 3 && dis.length == 1) then
      (true, ups.foldl (fun d c =>
        if dis.contains c then d.copyDisagrees page unit c e.head (hit == some c)
        else d.onBore fun b => { b with runs := sput 0 b.runs c 0 }) d)
    else (false, d.noMajorityOf 0 ((ups.filter fun c => !dis.contains c).map fun c => 2 ^ c).sum e)

/-! ### Launching -/

/-- An event of this die, with the next SEQ taken (R223). -/
def Die.makeEvent (d : Die) (typ qual scope dest exec arg0 arg1 : Nat) : BoreEvent × Die :=
  let n := d.part.fld 0x306C 0 16
  ({ typ := typ, qual := qual, scope := scope % 4 + (if d.simplex then 32 else 0), partition := d.partition, seq := n
     source := d.part.gdid, dest := dest, exec := exec, arg0 := arg0, arg1 := arg1 },
   d.onPart fun p => p.setFld 0x306C 0 16 (n + 1))

/-- An event launched up the pairs (R225). -/
def Die.boreLaunch (d : Die) (typ qual scope dest exec arg0 arg1 : Nat) : Die :=
  let (e, d) := d.makeEvent typ qual scope dest exec arg0 arg1
  d.boreSend e

end Sys2Proof.Machine
end

