-- ==== Sys2Proof/Machine/Oxbow.lean ====
section
/-! DEFINITION. Oxbow (chapter 09): the gate slots (R200–R205), hold causes (R202), suspects and late flags (R203, R209),
verdicts (R207, R208), disputes (R211–R213), jobs and page states (R214, R215). -/

namespace Sys2Proof.Machine

/-- The die with its Oxbow state changed. -/
def Die.onOx (d : Die) (f : OxbowState → OxbowState) : Die := { d with oxbow := f d.oxbow }
/-- Address of a slot's registers. -/
def oxAddr (s : Nat) : Nat := 0x80A0 + 0x10 * s
/-- Step of a slot. -/
def Die.oxStep (d : Die) (s : Nat) : Nat := d.part.num (oxAddr s)
/-- State of a slot: 0 FREE, 1 QUEUED, 2 CHECK, 3 HELD, 4 ANSWER. -/
def Die.oxState (d : Die) (s : Nat) : Nat := d.part.fld (oxAddr s + 4) 0 3
/-- STAT.DISPUTED. -/
def Die.disputed (d : Die) : Bool := d.part.bit 0x8044 3
/-- Optimistic mode (R201). -/
def Die.optimistic (d : Die) : Bool := d.part.bit 0x8040 0

/-- The last step marker accepted since the last enable or JOB_START (R203). -/
def Die.lastMarker (d : Die) : Option Nat :=
  if d.spring.prevMarker.isSome then some (d.part.num 0x40054) else none

/-- The first hold cause that stands for a slot (R202), 0 when none does. FLAG_UPTO 0 flags no step: every suspect sets
it to at least 1 (log entry 13). -/
def Die.holdCause (d : Die) (s : Nat) : Nat :=
  let step := d.oxStep s
  if d.disputed then 2
  else if (decide (0 < d.oxbow.suspectUpto ∧ step ≤ d.oxbow.suspectUpto)) || (sget none d.oxbow.flagged s).isSome then 1
  else if (match d.oxbow.follow with | some f => decide (step ≤ f) | none => false) then 3
  else if d.part.bit 0x8040 2 || d.oxbow.stopHold then 4
  else if (d.part.pstate 8 == .off || d.part.pstate 8 == .enabling) && d.part.bit 0x8040 1 then 5
  else 0

/-- The cause of a hold (R206, R218; log entry 170): of a SUSPECT hold the first suspect that flagged the step, or the one
that set FLAG_NEXT; of a DISPUTED hold the dispute. Other holds have none. -/
def Die.holdBy (d : Die) (s reason : Nat) : Option Suspect :=
  if reason = 1 then
    match sget none d.oxbow.flagged s with
    | some c => some c
    | none => (d.oxbow.suspects.find? fun c => decide (d.oxStep s ≤ c.1)).map Prod.snd
  else if reason = 2 then
    let u := d.part.fld 0x8074 0 10
    some ⟨d.oxbow.disputeAt, 0x0B12, if u = 0x3FF then 0xFFFF else u⟩
  else none

/-- A REPLAY_REQ record (R206) of a step with its cause. -/
def Die.replayReq (d : Die) (step tag reason time : Nat) (c : Option Suspect) : Die :=
  let c : Suspect := c.getD ⟨0, 0, 0xFFFF⟩
  d.onPart fun p => p.raiseEach 8 16
    { opCode := if reason = 6 then 4 else 1, time := some time, step := some step
      detail := leBytes 4 step ++ leBytes 2 tag ++ leBytes 1 reason ++ leBytes 2 c.code ++ leBytes 2 c.engine ++
        leBytes 8 c.time ++ leBytes 1 (if d.optimistic then 1 else 0) }

/-- A release-history entry written in ring order (R217). -/
def Die.histEntry (d : Die) (step : Nat) (unchecked : Bool) : Die :=
  let n := d.part.fld 0x809C 0 6
  let m := Mem.wrLE (Mem.wrLE (Mem.wrLE d.oxbow.hist (16 * n) 4 step) (16 * n + 4) 8 d.now) (16 * n + 12) 1
    (if unchecked then 4 else 0)
  (d.onOx fun o => { o with hist := m, histUsed := min 64 (o.histUsed + 1) }).onPart fun p =>
    p.setFld 0x809C 0 6 (n + 1)

/-- The oldest response not yet accepted presented to the collective engine (R198): the one exchange carries the responses
in the order they arose. -/
def Die.present (d : Die) : Die :=
  d.onPart fun p => match d.oxbow.resp with
    | .slot s :: _ => { p with out := p.out ++ [Out.gate (p.fld (oxAddr s + 4) 6 2) (p.num (oxAddr s))] }
    | .refused step :: _ => { p with out := p.out ++ [Out.gate 3 step] }
    | [] => p

/-- A response that arises (R198): presented at once unless an earlier one has not been accepted. -/
def Die.oxRespond (d : Die) (r : GateResp) : Die :=
  let d' := d.onOx fun o => { o with resp := o.resp ++ [r] }
  if d.oxbow.resp.isEmpty then d'.present else d'

/-- Whether a slot is head: the oldest in use. -/
def Die.isHead (d : Die) (s : Nat) : Bool := d.oxbow.order.head? == some s

/-- A slot answered (R205): `code` 1 RELEASE, 2 DISCARD; the response is presented once the slot is head. -/
def Die.oxAnswer (d : Die) (s code : Nat) : Die :=
  let d := d.onPart fun p =>
    let p := (p.setFld (oxAddr s + 4) 0 3 4).setFld (oxAddr s + 4) 6 2 code
    if code = 1 then p.inc 0x807C else p.inc 0x8084
  if d.isHead s then d.oxRespond (.slot s) else d

/-- A slot released (R205): RELEASED_LAST and RELEASE_TIME, the history entry, EVENT_COUNT; its deadline stage ends. -/
def Die.oxRelease (d : Die) (s : Nat) (unchecked : Bool) : Die :=
  let step := d.oxStep s
  let d := { d with part := (d.part.stageDone 8 0 s).2 }
  let d := d.onPart fun p =>
    let p := ((p.setNum 0x8058 step).setNum64 0x805C p.now).event 8
    if unchecked then p.inc 0x8088 else p
  (d.histEntry step unchecked).oxAnswer s 1

/-- A slot discarded. -/
def Die.oxDiscard (d : Die) (s : Nat) : Die := (d.onPart fun p => p.stageDrop 8 0 s).oxAnswer s 2

/-- A slot enters HELD (R206): NEXT_TAG is taken, REPLAY_REQ emitted, and the deadline stages of this and the later
slots withdrawn (R201; log entry 14). -/
def Die.oxHold (d : Die) (s reason : Nat) : Die :=
  let tag := d.part.fld 0x8064 0 16
  let d := d.onPart fun p =>
    let a := oxAddr s + 4
    let p := ((p.setFld a 0 3 3).setFld a 3 3 reason).setFld a 16 16 tag
    ((p.setFld 0x8064 0 16 (tag + 1)).inc 0x8080).setBit 0x50 0 true
  let d := d.onPart fun p => (List.range 4).foldl (fun p t => p.stageDrop 8 0 t) p
  d.replayReq (d.oxStep s) tag reason (max (sget 0 d.oxbow.due s) (d.part.num64 (oxAddr s + 8)))
    (d.holdBy s reason)

/-- Whether requests are released at arrival without any check: the page is OFF or ENABLING with OFF_HOLD 0 (R215). -/
def Die.unchecked (d : Die) : Bool :=
  (d.part.pstate 8 == .off || d.part.pstate 8 == .enabling) && !d.part.bit 0x8040 1

/-- The decision of a slot in CHECK (R201, R202, R215). -/
def Die.oxDecide (d : Die) (s : Nat) : Die :=
  if d.part.pstate 8 = .faulted then d
  else if d.unchecked then d.oxRelease s true
  else match d.holdCause s with
  | 0 => d.oxRelease s false
  | r => d.oxHold s r

/-- The head of the gate taken forward (R205): a QUEUED head enters CHECK, and a decision instant already past, or a release
without check, is taken at once; an ANSWER head has its response presented. DESIGN CHOICE (log entry 194): a request taken
in DRAINING stays QUEUED until the drain is done. -/
def Die.oxHead (d : Die) : Die :=
  match d.oxbow.order.head? with
  | none => d
  | some s =>
    if d.oxState s = 1 then
      if d.part.pstate 8 = .draining ∧ sget false d.oxbow.meanwhile s = true then d
      else
        let d := d.onPart fun p => p.setFld (oxAddr s + 4) 0 3 2
        if d.unchecked || decide (sget 0 d.oxbow.due s < d.now) then d.oxDecide s else d
    else if d.oxState s = 4 ∧ ¬ (.slot s ∈ d.oxbow.resp) then d.oxRespond (.slot s)
    else d

/-- A gate request refused (R200): 1 full, 2 duplicate, 3 at or below RELEASED_LAST. -/
def Die.oxRefuse (d : Die) (step cause : Nat) : Die :=
  (d.oxRespond (.refused step)).onPart fun p =>
    (p.inc 0x8098).raise 8 21
      { opCode := 1, detail := leBytes 4 step ++ leBytes 1 (p.fld 0x8044 0 3) ++ leBytes 1 cause }

/-- A gate request taken into a slot or refused (R198, R200, R205). -/
def Die.gateRequest (d : Die) (step : Nat) : Die :=
  if 4 ≤ d.oxbow.order.length then d.oxRefuse step 1
  else if d.oxbow.order.any (fun s => d.oxStep s == step) then d.oxRefuse step 2
  else if d.part.num 0x8058 ≠ 0xFFFFFFFF ∧ step ≤ d.part.num 0x8058 then d.oxRefuse step 3
  else match (List.range 4).find? (fun s => !d.oxbow.order.contains s) with
  | none => d
  | some s =>
    let due := d.now + (if d.optimistic then 0 else d.part.num 0x8048)
    let behindHold := d.oxbow.order.any fun t => d.oxState t == 3
    let flag := d.part.bit 0x8044 4
    let d := d.onOx fun o =>
      { o with
        order := o.order ++ [s], due := sput 0 o.due s due
        flagged := sput none o.flagged s (if flag then some (o.nextCause.getD ⟨0, 0, 0xFFFF⟩) else none)
        meanwhile := sput false o.meanwhile s (d.part.pstate 8 == .draining) }
    let d := d.onPart fun p =>
      let p := ((p.setNum (oxAddr s) step).setNum (oxAddr s + 4) 1).setNum64 (oxAddr s + 8) p.now
      let p := (p.setBit 0x8044 4 false).setFld 0x8044 0 3 d.oxbow.order.length
      if behindHold then p else p.stageStart 8 0 s 1 p.now
    if d.isHead s then d.oxHead else d

/-- DECIDE (R201): the head slot's decision instant comes. -/
def Die.oxDecideHead (d : Die) : Die :=
  match d.oxbow.order.head? with
  | none => d
  | some s => if d.oxState s = 2 then (d.onPart fun p => p.reach (sget 0 d.oxbow.due s)).oxDecide s else d

/-- The engine accepts the response presented (R205): an answered slot frees and the next becomes head. An acceptance after
the response was abandoned is not taken (R198; log entry 15). -/
def Die.oxAck (d : Die) : Die :=
  match d.oxbow.resp, d.oxbow.abandoned with
  | r :: rest, none =>
    let d := (d.onOx fun o => { o with resp := rest }).present
    match r with
    | .refused _ => d
    | .slot s =>
      let order := d.oxbow.order.erase s
      let d := d.onOx fun o =>
        { o with
          order := order, flagged := sput none o.flagged s none, due := sput 0 o.due s 0
          meanwhile := sput false o.meanwhile s false }
      (d.onPart fun p => (p.setNum (oxAddr s + 4) 0).setFld 0x8044 0 3 order.length).oxHead
  | _, _ => d

/-- The abandoned response presented again 10 µs later (R198). -/
def Die.oxRepresent (d : Die) : Die :=
  match d.oxbow.abandoned with
  | some t => ((d.onPart fun p => p.reach (t + 10000)).onOx fun o => { o with abandoned := none }).present
  | none => d

/-! ### Suspects and late flags -/

/-- The history entries in use, oldest first. -/
def Die.histOrder (d : Die) : List Nat :=
  let n := d.part.fld 0x809C 0 6
  let k := min 64 d.oxbow.histUsed
  (List.range k).map fun i => (n + 64 - k + i) % 64

/-- Step of a history entry. -/
def Die.histStep (d : Die) (n : Nat) : Nat := Mem.rdLE d.oxbow.hist (16 * n) 4
/-- Release time of a history entry. -/
def Die.histTime (d : Die) (n : Nat) : Nat := Mem.rdLE d.oxbow.hist (16 * n + 4) 8
/-- Flags of a history entry. -/
def Die.histFlags (d : Die) (n : Nat) : Nat := Mem.rdLE d.oxbow.hist (16 * n + 12) 1
/-- A flag set in a history entry. -/
def Die.histMark (d : Die) (n b : Nat) : Die :=
  d.onOx fun o => { o with hist := Mem.wrLE o.hist (16 * n + 12) 1 (Mem.rdLE o.hist (16 * n + 12) 1 ||| b) }

/-- The late-flag rule of R209 for a suspect: exposed steps are named in gated mode and retracted in optimistic mode,
one REPLAY_REQ for each retracted step (log entry 16). The history is read, so an armed injection of CE or UE is taken; an
uncorrectable history faults the page and names nothing (R459; log entry 31). -/
def Die.lateFlag (d : Die) (c : Suspect) : Die :=
  let (e, p) := if d.oxbow.histUsed = 0 then (Ecc.ok, d.part) else d.part.eccRead 8 (2 * (d.part.fld 0x809C 0 6)) 0 .ok 4
  let d := { d with part := p }
  if e = .ue then d.onPart fun p => p.pageFault 8 0x04
  else
  let from_ := c.time - d.part.num 0x804C
  let ex := (d.histOrder.filter fun n => decide (from_ ≤ d.histTime n)).mergeSort fun a b =>
    decide (d.histStep a ≤ d.histStep b)
  let short := match d.histOrder.head? with | some n => decide (from_ < d.histTime n) | none => false
  let sh := leBytes 1 (if short then 1 else 0)
  if d.optimistic then
    let rs := ex.filter fun n => !(d.histFlags n).testBit 1
    match rs.head?, rs.getLast? with
    | some a, some b =>
      let exec := c.time + d.part.num 0x8050
      let d := rs.foldl (fun d n =>
        ((d.boreLaunch 5 0 2 0xFFFFFFFF exec (d.histStep n) d.job).histMark n 2).onPart fun p => p.inc 0x808C) d
      let d := d.onPart fun p => p.raiseEach 8 19
        { opCode := 4
          detail := leBytes 4 (d.histStep a) ++ leBytes 4 (d.histStep b) ++ leBytes 1 (min 255 rs.length) ++ sh ++
            leBytes 8 exec ++ leBytes 2 c.engine }
      rs.foldl (fun d n => d.replayReq (d.histStep n) 0xFFFF 6 c.time (some c)) d
    | _, _ => d
  else match ex.head?, ex.getLast? with
    | some a, some b =>
      let fresh := (ex.filter fun n => !(d.histFlags n).testBit 0).length
      let d := ex.foldl (fun d n => d.histMark n 1) d
      d.onPart fun p => (p.incBy 0x8090 fresh).raiseEach 8 17
        { opCode := 4
          detail := leBytes 4 (d.histStep a) ++ leBytes 4 (d.histStep b) ++ leBytes 1 (min 255 ex.length) ++ sh ++
            leBytes 2 c.code ++ leBytes 2 c.engine ++ leBytes 6 c.time }
    | _, _ => d

/-- A suspect indication from Gauge (R184, R203, R209). -/
def Die.suspect (d : Die) (code engine : Nat) : Die :=
  let c : Suspect := ⟨d.now, code, engine⟩
  let d := match d.lastMarker with
    | some m =>
      let u := min 0xFFFFFFFF (m + 1)
      (d.onOx fun o =>
        { o with suspectUpto := max o.suspectUpto u
                 suspects := if o.suspectUpto < u then o.suspects ++ [(u, c)] else o.suspects }).onPart fun p =>
        p.setNum 0x8054 (max (p.num 0x8054) u)
    | none => (d.onOx fun o => { o with nextCause := some c }).onPart fun p => p.setBit 0x8044 4 true
  d.lateFlag c

/-! ### Verdicts -/

/-- A verdict refused (R207): ACCESS_ERR, the count and VERDICT_REFUSED with its cause. -/
def Die.verdictRefuse (d : Die) (w : W32) (cause : Nat) : Die :=
  d.onPart fun p =>
    ((p.accessErrOp 8 0x806C w true 2).inc 0x8094).raise 8 20
      { opCode := 2
        detail := leBytes 4 (p.num 0x8068) ++ leBytes 2 (bitsOf w.toNat 0 16) ++ leBytes 1 (bitsOf w.toNat 16 2) ++
          leBytes 1 cause }

/-- VERDICT_CTL written (R207, R208). -/
def Die.verdict (d : Die) (w : W32) : Die :=
  let step := d.part.num 0x8068
  let tag := bitsOf w.toNat 0 16
  let code := bitsOf w.toNat 16 2
  match (if d.part.pstate 8 = .faulted then none
      else d.oxbow.order.find? fun s => d.oxState s == 3 && d.oxStep s == step) with
  | none => d.verdictRefuse w 1
  | some s =>
    if d.part.fld (oxAddr s + 4) 16 16 ≠ tag then d.verdictRefuse w 2
    else if code ≠ 1 ∧ code ≠ 2 then d.verdictRefuse w 4
    else if code = 1 then (if d.disputed then d.verdictRefuse w 3 else d.oxRelease s false)
    else
      let m := min 0xFFFFFFFF ((d.lastMarker.getD step) + 1)
      let d := d.onOx fun o =>
        { o with follow := some (match o.follow with | some f => max f m | none => m) }
      (d.onPart fun p => p.setNum 0x8054 (max (p.num 0x8054) m)).oxDiscard s

/-! ### Disputes -/

/-- A dispute signal (R211, R212) by path `src`: 0 Tributary, 1 Bore, 2 register. -/
def Die.dispute (d : Die) (tag unit src : Nat) : Die :=
  if d.disputed && d.part.fld 0x8044 16 16 == tag then
    d.onPart fun p => p.setFld 0x8044 8 3 (p.fld 0x8044 8 3 ||| 2 ^ src)
  else
    let n := (d.oxbow.order.filter fun s => d.oxState s == 1 || d.oxState s == 2).length
    let d := d.onPart fun p =>
      let p := if p.bit 0x8044 3 then p else p.setBit 0x50 1 true
      let p := (((p.setBit 0x8044 3 true).setFld 0x8044 8 3 (2 ^ src)).setFld 0x8044 16 16 tag).setFld 0x8074 0 10 unit
      p.raiseEach 8 18
        { opCode := 3, detail := leBytes 2 tag ++ leBytes 2 unit ++ leBytes 1 (2 ^ src) ++ leBytes 1 n }
    (d.onOx fun o => { o with disputeAt := d.now }).disputeAsk tag unit

/-- CTL.DISPUTE_CLR (R213). -/
def Die.disputeClr (d : Die) (w : W32) : Die :=
  if !d.disputed || d.part.fld 0x8044 16 16 != d.part.fld 0x8070 0 16 then
    d.onPart fun p => p.accessErrOp 8 0x8040 w true 3
  else
    let d := d.onPart fun p => (p.setBit 0x8044 3 false).setFld 0x8044 8 3 0
    if wbit w 5 && d.part.pstate 8 != .faulted then
      d.oxbow.order.foldl (fun d s =>
        if d.oxState s = 3 ∧ d.part.fld (oxAddr s + 4) 3 3 = 2 then
          match d.holdCause s with
          | 0 => d.oxRelease s false
          | r => d.onPart fun p => p.setFld (oxAddr s + 4) 3 3 r
        else d) d
    else d

/-! ### Jobs and page states -/

/-- Every slot not in ANSWER answered DISCARD (R214, R215). -/
def Die.oxDiscardAll (d : Die) : Die :=
  d.oxbow.order.foldl (fun d s => if d.oxState s = 4 then d else d.oxDiscard s) d

/-- The Oxbow actions of JOB_START and JOB_ABORT (R214). -/
def Die.oxJob (d : Die) : Die :=
  let d := d.oxDiscardAll
  (d.onOx fun o =>
    { o with suspectUpto := 0, follow := none, suspects := [], nextCause := none, hist := [], histUsed := 0, stopHold := false
             flagged := [] }).onPart fun p =>
    (((p.setNum 0x8054 0).setBit 0x8044 4 false).setNum 0x8058 0xFFFFFFFF).setFld 0x809C 0 6 0

end Sys2Proof.Machine
end

