-- ==== Sys2Proof/Machine/Barrier.lean ====
section
/-! DEFINITION. Barrier contexts (R231–R233, R241–R243). -/

namespace Sys2Proof.Machine

/-- The BORE_BAR page of context `c` (R35). -/
def ctxPage (c : Nat) : Nat := 4 + c / 64
/-- The byte offset of a context's slot (R35). -/
def ctxAddr (c : Nat) : Nat := ctxPage c * 0x1000 + 0x40 + (c % 64) * 0x20
/-- CTX_CTL.EN. -/
def Die.ctxEn (d : Die) (c : Nat) : Bool := d.part.bit (ctxAddr c) 0
/-- CTX_CTL.ROLE: 0 LOCAL, 1 MEMBER, 2 MASTER. -/
def Die.ctxRole (d : Die) (c : Nat) : Nat := d.part.fld (ctxAddr c) 1 2
/-- CTX_CTL.WAIT_MODE: GATED. -/
def Die.ctxGated (d : Die) (c : Nat) : Bool := d.part.bit (ctxAddr c) 3
/-- CTX_CTL.JOB_SCOPED. -/
def Die.ctxJobScoped (d : Die) (c : Nat) : Bool := d.part.bit (ctxAddr c) 6
/-- EXPECT. -/
def Die.ctxExpect (d : Die) (c : Nat) : Nat := d.part.fld (ctxAddr c + 4) 0 16
/-- STATE.COUNT. -/
def Die.ctxCount (d : Die) (c : Nat) : Nat := d.part.fld (ctxAddr c + 8) 0 16
/-- STATE.SENSE. -/
def Die.ctxSense (d : Die) (c : Nat) : Nat := d.part.fld (ctxAddr c + 8) 16 1
/-- STATE.STATE: 0 DISABLED, 1 COUNTING, 2 WAIT_RELEASE. -/
def Die.ctxState (d : Die) (c : Nat) : Nat := d.part.fld (ctxAddr c + 8) 17 2
/-- PHASE. -/
def Die.ctxPhase (d : Die) (c : Nat) : Nat := d.part.num (ctxAddr c + 0x14)

/-- Where an arrival comes from, as DETAIL names it (R243): 0 core, 1 register, 2 remote, with the core number or
source GDID. -/
structure ArriveSrc where
  kind : Nat
  id : Nat

/-- STATE.COUNT set. -/
def Die.setCount (d : Die) (c n : Nat) : Die := d.onPart fun p => p.setFld (ctxAddr c + 8) 0 16 n
/-- STATE.STATE set. -/
def Die.setCtxState (d : Die) (c v : Nat) : Die := d.onPart fun p => p.setFld (ctxAddr c + 8) 17 2 v
/-- STATE.SENSE inverted. -/
def Die.flipSense (d : Die) (c : Nat) : Die :=
  d.onPart fun p => p.setFld (ctxAddr c + 8) 16 1 (1 - p.fld (ctxAddr c + 8) 16 1)
/-- PHASE set; a completed phase is one event of the page (R241). -/
def Die.setPhase (d : Die) (c n : Nat) : Die := d.onPart fun p => (p.setNum (ctxAddr c + 0x14) n).event (ctxPage c)

/-- STATE.SAT and ERR_STAT.SAT of a count that would pass 65,535 (R231); `index` 0 COUNT, 1 OVER_COUNT, 2 UNDER_COUNT. -/
def Die.ctxSat (d : Die) (c index : Nat) : Die :=
  d.onPart fun p => (p.setBit (ctxAddr c + 8) 19 true).raise (ctxPage c) 5 { unit := c, detail := leBytes 2 index }

/-- A half of MISMATCH advanced by `n`, saturating (R231, R242). -/
def Die.mismatch (d : Die) (c half n : Nat) : Die :=
  let v := d.part.fld (ctxAddr c + 0x18) (16 * half) 16
  let d' := d.onPart fun p => p.setFld (ctxAddr c + 0x18) (16 * half) 16 (min 0xFFFF (v + n))
  if 0xFFFF < v + n then d'.ctxSat c (1 + half) else d'

/-- Excess arrivals (R232): OVER_COUNT and OVERFLOW. -/
def Die.ctxOver (d : Die) (c n sense : Nat) (src : ArriveSrc) : Die :=
  let ph := d.ctxPhase c
  (d.mismatch c 0 n).onPart fun p => p.raise (ctxPage c) 16
    { unit := c, detail := leBytes 2 n ++ leBytes 1 sense ++ leBytes 1 src.kind ++ leBytes 4 src.id ++ leBytes 4 ph }

/-- UNDERFLOW with its cause: 1 released short, 2 stale release, 3 release at LOCAL (R243). -/
def Die.ctxUnder (d : Die) (c cause : Nat) : Die :=
  let det := leBytes 2 (d.ctxCount c) ++ leBytes 2 (d.ctxExpect c) ++ leBytes 1 cause ++ [0, 0, 0] ++
    leBytes 4 (d.ctxPhase c)
  d.onPart fun p => p.raise (ctxPage c) 17 { unit := c, detail := det }

/-- ARRIVE_DROPPED with its cause (R243). -/
def Die.ctxDropped (d : Die) (c cause n : Nat) (src : ArriveSrc) : Die :=
  d.onPart fun p => p.raise (ctxPage c) 18
    { unit := c, detail := leBytes 1 cause ++ leBytes 2 n ++ leBytes 4 src.id }

/-- The waiters of a context released (R233): gated cores wake. `aborted` marks an abort or reset. -/
def Die.ctxWake (d : Die) (c : Nat) (aborted : Bool) : Die :=
  let ws : List Waiter := sget [] d.bore.waiters c
  let wake : List Out := ws.filterMap fun (w : Waiter) => if w.gated then some (Out.barrierWake w.core) else none
  let d := d.onBore fun b => { b with waiters := sput [] b.waiters c [] }
  d.onPart fun p =>
    let p := { p with out := p.out ++ wake }
    (p.setBit (ctxAddr c + 8) 20 aborted).setNum (ctxAddr c + 0x1C) p.now

/-- The barrier stage of a release (R87): from the last arrival to the release on the die, here one command. -/
def Die.ctxStage (d : Die) (c : Nat) : Die :=
  d.onPart fun p => ((p.stageStart (ctxPage c) 0 c 0 p.now).stageDone (ctxPage c) 0 c).2

/-- A completed phase at its context (R232): SENSE inverted, COUNT 0, PHASE, waiters released. -/
def Die.ctxComplete (d : Die) (c phase : Nat) : Die :=
  ((((d.flipSense c).setCount c 0).setCtxState c 1).setPhase c phase).ctxWake c false

/-- A core that arrived waits until its context releases (R233); with GATED its wait request rises. -/
def Die.ctxWait (d : Die) (c k : Nat) : Die :=
  let g := d.ctxGated c
  let d := d.onBore fun b => { b with waiters := sput [] b.waiters c (sget [] b.waiters c ++ [⟨k, g⟩]) }
  if g then d.onPart fun p => { p with out := p.out ++ [Out.coreWait k] } else d

/-- An arrival that a context of an ACTIVE page counts (R231, R232): the rows of COUNTING and WAIT_RELEASE. A core that comes
too late for the count waits for the release all the same (R233). -/
def Die.ctxCountArrival (d : Die) (c sense n : Nat) (src : ArriveSrc) : Die :=
  if sense ≠ d.ctxSense c then d.ctxOver c n sense src
  else if d.ctxState c = 2 then (if src.kind = 0 then d.ctxWait c src.id else d).ctxOver c n sense src
  else
    let total := d.ctxCount c + n
    let d := if 0xFFFF < total then d.ctxSat c 0 else d
    let t := min 0xFFFF total
    let x := d.ctxExpect c
    let d := if src.kind = 0 then d.ctxWait c src.id else d
    if t < x then d.setCount c t
    else
      let d := if x < t then d.ctxOver c (t - x) sense src else d
      match d.ctxRole c with
      | 0 => (d.ctxStage c).ctxComplete c (d.ctxPhase c + 1)
      | 1 => ((d.setCount c 0).setCtxState c 2).boreLaunch 3 sense (d.part.fld (ctxAddr c) 4 2)
          (d.part.num (ctxAddr c + 0x0C)) 0 c x
      | _ => ((d.setCount c 0).setCtxState c 2).boreLaunch 4 (1 - sense) (d.part.fld (ctxAddr c) 4 2)
          0xFFFFFFFF 0 c ((d.ctxPhase c + 1) % 4294967296)

/-- An arrival at context `c` (R231, R241): dropped on a page that is not ACTIVE, at a disabled context, or when a
remote arrival meets a context that is not MASTER. It is one handshake of the context's three copies (R219). A core's sense
line follows the context it last arrived at (R422). -/
def Die.ctxArrive (d : Die) (c sense n : Nat) (src : ArriveSrc) : Die :=
  let d := if src.kind = 0 then d.onBore fun b => { b with lastCtx := sput none b.lastCtx src.id (some c) } else d
  let (ok, d) := d.copiesVote (ctxPage c) c { typ := 3, qual := sense, arg0 := c, arg1 := n }
  if !ok then d
  else if !d.part.active (ctxPage c) then d.ctxDropped c 2 n src
  else if d.ctxState c = 0 then d.ctxDropped c 1 n src
  else if src.kind = 2 ∧ d.ctxRole c ≠ 2 then d.ctxDropped c 3 n src
  else d.ctxCountArrival c sense n src

/-- A BARRIER_RELEASE received for context `c` with new sense `b` and phase `ph` (R232). -/
def Die.ctxRelease (d : Die) (c b ph source : Nat) : Die :=
  match d.ctxState c with
  | 0 => d.ctxDropped c 1 0 ⟨2, source⟩
  | 2 =>
    if b = d.ctxSense c then d.ctxUnder c 2 else (d.ctxStage c).ctxComplete c ph
  | _ =>
    if d.ctxRole c = 0 then d.ctxUnder c 3
    else if b = d.ctxSense c then d.ctxUnder c 2
    else ((d.ctxUnder c 1).mismatch c 1 (d.ctxExpect c - d.ctxCount c)).ctxComplete c (d.ctxPhase c + 1)

/-- CTX_CTL.EN written (R232): a DISABLED context counts from 0; EN 0 disables it (log entry 20). -/
def Die.ctxEnable (d : Die) (c : Nat) (en : Bool) : Die :=
  if !en then d.setCtxState c 0
  else if d.ctxState c = 0 then (d.setCount c 0).setCtxState c 1 else d

/-- CTX_CTL.RESET (R232). -/
def Die.ctxReset (d : Die) (c : Nat) : Die :=
  ((((d.setCount c 0).onPart fun p => (p.setFld (ctxAddr c + 8) 16 1 0).setNum (ctxAddr c + 0x14) 0)).setCtxState c
    (if d.ctxEn c then 1 else 0)).ctxWake c true

/-- The contexts that count or that a core waits at: every other context is DISABLED and has nobody to release. -/
def Die.ctxUsed (d : Die) : List Nat :=
  (List.range 256).filter fun c => d.ctxState c != 0 || !(sget [] d.bore.waiters c).isEmpty

/-- BAR_SENSE of a core (R233, R422): SENSE of the context it last arrived at; low before its first arrival. -/
def Die.barSense (d : Die) (k : Nat) : Bool :=
  match sget none d.bore.lastCtx k with
  | some c => d.ctxSense c == 1
  | none => false

/-- JOB_START at the contexts (R230, R232). -/
def Die.ctxJobStart (d : Die) : Die :=
  let d := d.ctxUsed.foldl (fun d c => if d.ctxJobScoped c && d.ctxState c != 0 then (d.setCount c 0).setCtxState c 1 else d) d
  let c := d.part.fld 0x3040 8 8
  if d.part.bit 0x3040 16 && d.ctxState c == 1 then d.ctxComplete c (d.ctxPhase c + 1) else d

/-- JOB_ABORT at the contexts (R230, R232). -/
def Die.ctxJobAbort (d : Die) : Die :=
  d.ctxUsed.foldl (fun d c =>
    if d.ctxJobScoped c && d.ctxState c != 0 then (((d.setCount c 0).setCtxState c 1).flipSense c).ctxWake c true else d) d

/-- A BORE_BAR page reaches OFF (R241): its waiters are released with ABORTED, SENSE inverted and COUNT zeroed (log
entry 21). -/
def Die.ctxPageOff (d : Die) (page : Nat) : Die :=
  d.ctxUsed.foldl (fun d c =>
    if ctxPage c = page then
      let held := !(sget [] d.bore.waiters c).isEmpty || d.ctxState c == 2
      let d := if d.ctxState c = 0 then d else (d.setCount c 0).setCtxState c 1
      if held then (d.flipSense c).ctxWake c true else d
    else d) d

/-- Whether a DRAIN of a BORE_BAR page may complete (R241): none of its contexts waits for release. -/
def Die.ctxIdle (d : Die) (page : Nat) : Bool :=
  !(d.ctxUsed.any fun c => ctxPage c == page && d.ctxState c == 2)

end Sys2Proof.Machine
end

