-- ==== Sys2Proof/Machine/DieView.lean ====
section
/-! DEFINITION. What a register word reads as: the common header (R37), the error summary (R48), and on a die the words
whose value lies in typed state (Headwater time and discipline, live counters, queue depths), and the memories behind
the die's indirect ports (R49). -/

namespace Sys2Proof.Machine


/-- A word of the common header (R37); ERR_FIRST as captured (R46). -/
def Part.hdrWord (p : Part) (page off : Nat) : W32 :=
  let h := p.hdr page
  match off / 4 with
  | 0 => BitVec.ofNat 32 ((match pageClass p.isAgg page with | some c => classCode c | none => 0) * 16777216
      + pageInst p.isAgg page * 256 + 1)
  | 1 => BitVec.ofNat 32 (8 * b2n h.lock)
  | 2 => BitVec.ofNat 32 (pstateCode h.state + 256 * b2n h.enablePending)
  | 3 => h.errStat
  | 4 => h.errMask
  | 5 => BitVec.ofNat 32 (h.armed.toNat * 65536)
  | 6 => BitVec.ofNat 32 (h.first.bit % 32 + h.first.unit % 65536 * 256 + b2n h.first.valid * 2147483648)
  | 7 => h.deadline
  | 8 => h.lateCount
  | 9 => h.eventCount
  | _ => 0

/-- Whether a page has an unmasked ERR_STAT bit set (R48). -/
def PageHdr.alarmed (h : PageHdr) : Bool := h.errStat &&& ~~~h.errMask != 0

/-- A word of the error summary (R48): bit b of word w names page 32w + b. -/
def Part.summaryWord (p : Part) (w : Nat) : W32 :=
  p.hdrs.foldl (fun x e => if e.1 / 32 = w ∧ e.2.alarmed then x ||| BitVec.ofNat 32 (2 ^ (e.1 % 32)) else x) 0

/-- Whether any page is in the error summary (R48). -/
def Part.anySummary (p : Part) : Bool := p.hdrs.any fun e => e.2.alarmed

/-- A discipline machine's state code (R78). -/
def dstateCode : DState → Nat
  | .free => 0 | .locking => 1 | .locked => 2 | .holdover => 3

/-- A discipline machine's STAT word (R78). -/
def Disc.word (x : Disc) : W32 :=
  BitVec.ofNat 32 (dstateCode x.state + 8 * b2n x.unsynced + 16 * b2n x.stepped + 32 * b2n x.armed +
    64 * b2n x.refLoss + 256 * (x.lockRun % 16))

/-- A counter as RILL registers show it (R121). -/
def Die.counter (d : Die) (i : Nat) : Counter := sget {} d.spring.counters i

/-- A bit map over the sixteen counters of a tap. -/
def Die.tapMap (d : Die) (t : Nat) (f : Counter → Bool) : W32 :=
  BitVec.ofNat 32 (((List.range 16).map fun k => if f (d.counter (16 * t + k)) then 2 ^ k else 0).sum)

/-- A word of a tap slot (R121). -/
def Die.tapWord (d : Die) (t off : Nat) (stored : W32) : W32 :=
  if off = 0 then withBits stored 1 1 (b2n (!sget false d.ties.tapAbsent t))
  else if off = 4 then d.tapMap t Counter.sat
  else if off = 8 then d.tapMap t Counter.invalid
  else if 0x10 ≤ off ∧ off < 0x90 then
    let c := (d.counter (16 * t + (off - 0x10) / 8)).sum
    BitVec.ofNat 32 (if off % 8 = 0 then c else c / 4294967296)
  else stored

/-! ### Indirect memories -/

/-- Bytes of the memory a SELECT value of a page names (R49), `none` where it names none. -/
def indSize (page sel : Nat) : Option Nat :=
  if page = 0x002 then (if sel = 0 then some 4096 else none)
  else if page = 0x040 then
    (if sel < 2 then some 512 else if sel = 2 then some 8192 else if sel = 3 then some 786432 else none)
  else if page = 0x009 then (if sel < 2 then some 98304 else none)
  else if page = 0x010 then (if sel = 0 then some 1572864 else none)
  else if page = 0x018 then (if sel = 0 then some 81920 else if sel = 1 then some 24576 else none)
  else if page = 0x008 then (if sel = 0 then some 1024 else none)
  else if page = 0x140 then (if sel = 0 then some 8388608 else none)
  else if page = 0x041 then (if sel < 9 then some 16384 else none)
  else none

/-- The indirect port of a page: the byte offset of its IND_ADDR in the window. -/
def indPort (page : Nat) : Option Nat :=
  if page = 0x002 then some 0x2100 else if page = 0x040 then some 0x400C0 else if page = 0x009 then some 0x90A0
  else if page = 0x010 then some 0x10100 else if page = 0x018 then some 0x180C0 else if page = 0x008 then some 0x8100
  else if page = 0x140 then some 0x1400C0 else if page = 0x041 then some 0x410C0 else none

/-- A 32-bit word of a die memory by byte address. The retention store's layout is not stated: a free value (log
entry 5). -/
def Die.indWord (d : Die) (page sel a : Nat) : W32 :=
  if page = 0x002 then Mem.rd32 d.mon.base a
  else if page = 0x040 then
    if sel = 3 then Config.free32 d.part.fresh
    else
      let e (i : Nat) : Nat :=
        if sel = 2 then sget 0 d.spring.rawSel i
        else sget (128 * i) (if sel = 0 then d.spring.aon0 else d.spring.aon1) i
      BitVec.ofNat 32 (e (a / 2) % 65536 + 65536 * (e (a / 2 + 1) % 65536))
  else if page = 0x009 then Mem.rd32 (d.riffle.bank sel) a
  else if page = 0x010 then Mem.rd32 d.eddy.mem a
  else if page = 0x018 then Mem.rd32 (if sel = 0 then d.gauge.hist else d.gauge.tapMem) a
  else if page = 0x008 then Mem.rd32 d.oxbow.hist a
  else if page = 0x140 then
    BitVec.ofNat 32 (leNat (((sget [] d.meander.buf (a / 32)).drop (a % 32)).take 4))
  else if page = 0x041 then Mem.rd32 d.ident.stores (sel * 16384 + a)
  else 0

/-- The word IND_DATA of a page addresses (R49): 0 where the memory or the address does not exist. -/
def Die.indAddressed (d : Die) (page port : Nat) : W32 :=
  let sel := d.part.fld (port + 8) 8 8
  let a := d.part.num port / 4 * 4
  match indSize page sel with
  | none => 0
  | some n => if a < n then d.indWord page sel a else 0

/-! ### Words -/

/-- What a block register word of a die reads as, without the side effects of a read. -/
def Die.blockWord (d : Die) (addr : Nat) : W32 :=
  let p := d.part
  let page := addr / 0x1000
  let off := addr % 0x1000
  let w := p.rd addr
  match dieClass page with
  | some .global =>
    if off = 0x48 then withBits (withBits w 0 4 p.slot) 8 1 (b2n d.glob.gdidNext.isSome)
    else if off = 0x4C then BitVec.ofNat 32 (0xFFFE0000 + p.slot)
    else if 0x80 ≤ off ∧ off < 0x100 then p.summaryWord ((off - 0x80) / 4)
    else w
  | some .headwater =>
    if off = 0x40 then BitVec.ofNat 32 p.now
    else if off = 0x44 then BitVec.ofNat 32 (p.now / 4294967296)
    else if off = 0x48 then BitVec.ofNat 32 p.time.frac
    else if off = 0x50 then p.disc.word
    else if off = 0x5C then BitVec.ofInt 32 p.disc.trim
    else if off = 0xC4 then withBits w 0 6 d.hw.pool.length
    else w
  | some .rill => match slotOff .rill off with
    | some (o, s) => d.tapWord ((page - 0x080) * 16 + s) o w
    | none => w
  | some .gaugeEng => match slotOff .gaugeEng off with
    | some (o, s) =>
      let e := (page - 0x020) * 64 + s
      if o = 4 then withBits w 7 1 (b2n (d.engPresent e))
      else if o = 0x1C then withBits w 0 3 (tbinOf (d.engTemp e))
      else w
    | none => w
  | some .eddy =>
    if off = 0x44 then withBits w 0 16
      (((List.range 16).map fun i => p.fld (slotAddr (i % 4)) (i / 4) 1 * 2 ^ i).sum)
    else if off = 0x104 then d.indAddressed page 0x10100 else w
  | some .sluice =>
    if 0x140 ≤ off ∧ off < 0x1F0 ∧ (off - 0x140) % 0x10 = 0 then BitVec.ofNat 32 (d.port.depth ((off - 0x140) / 0x10))
    else w
  | _ => match indPort page with
    | some a => if addr = a + 4 then d.indAddressed page a else w
    | none => w

/-- Whether an offset of a page is assigned (R34): the common header, or a word some table of the page lists. -/
def assigned (isAgg : Bool) (page off : Nat) : Bool :=
  (pageClass isAgg page).isSome && (decide (off < 0x40) || (specOf isAgg page off).isSome)

/-- What a word of a die's window reads as, without the side effects of a read; unassigned words read 0 (R34). -/
def Die.view (d : Die) (addr : Nat) : W32 :=
  let page := addr / 0x1000
  let off := addr % 0x1000 / 4 * 4
  if !assigned false page off then 0
  else if off < 0x40 then d.part.hdrWord page off
  else d.blockWord (page * 0x1000 + off)

end Sys2Proof.Machine
end

