-- ==== Sys2Proof/Machine/Disc.lean ====
section
/-! DEFINITION. The discipline machine (R59–R65) that Headwater of a die and the aggregator's PTP clock share: the state
table, frozen trims, the servo, and how each input changes a machine. What a step or a record does to its part is the
caller's. -/

namespace Sys2Proof.Machine

/-- Arithmetic shift right. -/
def sar (x : Int) (n : Nat) : Int := x / (2 ^ n : Nat)

/-- ±200 ppm of the increment in 2⁻³² ns per tick (R64). -/
def trimLimit : Nat := 0x29F16B

/-- The settings of a discipline machine: JUMP_LIMIT and LOCK_NS in ns, the shifts and SERVO_EN with TRIM_SET. -/
structure DiscCfg where
  jump : Nat
  lock : Nat
  kp : Nat
  ki : Nat
  servo : Bool
  trimSet : Int

/-- What a discipline input asks of its part. `step` is the offset a step adds, in 2⁻¹⁶ ns; `unsync` the cause of an
UNSYNCED record; `clamp` the unclamped trim of a TRIM_CLAMP. -/
structure DiscDo where
  step : Option Int := none
  accepted : Bool := false
  refused : Bool := false
  missing : Bool := false
  unsync : Option Nat := none
  clamp : Option Int := none

/-- The frozen trim (R62): the mean of the trims of the last 16 measurements accepted since the last step, rounded
toward minus infinity; the trim in force when there are none. -/
def Disc.frozen (x : Disc) : Int := if x.trims.isEmpty then x.trim else x.trims.sum / (x.trims.length : Nat)

/-- Entry to HOLDOVER (R61, R62): the trim freezes unless the host owns it (R64). -/
def Disc.hold (x : Disc) (c : DiscCfg) (now : Nat) : Disc :=
  { x with state := .holdover, holdSince := now, trim := if c.servo then x.frozen else x.trim }

/-- The servo's update by an offset (R64), and the unclamped trim where a result was clamped. -/
def Disc.servo (x : Disc) (c : DiscCfg) (o : Int) : Disc × Option Int :=
  if c.servo then
    let e := sar (o * 13744) 16
    let i := x.integ + sar e c.ki
    let i' := clampAbs i trimLimit
    let t := i' + sar e c.kp
    let t' := clampAbs t trimLimit
    ({ x with integ := i', trim := t', trims := (t' :: x.trims).take 16 }, if i ≠ i' ∨ t ≠ t' then some t else none)
  else ({ x with trims := (x.trim :: x.trims).take 16 }, none)

/-- A step (R62): first or armed re-step; the machine enters LOCKING. -/
def Disc.stepped_ (x : Disc) : Disc :=
  { x with state := .locking, stepped := true, armed := false, lockRun := 0, trims := [] }

/-- A measurement input (R60, R61): the machine after it and what its part does. `o` in 2⁻¹⁶ ns. -/
def Disc.measure (x : Disc) (c : DiscCfg) (o : Int) (now : Nat) : Disc × DiscDo :=
  let out := decide ((c.jump * 65536 : Nat) < o.natAbs)
  match x.state with
  | .free => (x.stepped_, { step := some o, accepted := true })
  | .locking =>
    if !out then
      let (x, cl) := x.servo c o
      let run := if o.natAbs ≤ c.lock * 65536 then x.lockRun + 1 else 0
      let x := { x with lockRun := run }
      (if 8 ≤ run then { x with state := .locked, unsynced := false } else x, { accepted := true, clamp := cl })
    else if x.armed then (x.stepped_, { step := some o, accepted := true })
    else (x.hold c now, { refused := true })
  | .locked =>
    if !out then
      let (x, cl) := x.servo c o
      (x, { accepted := true, clamp := cl })
    else if x.armed then
      ({ x.stepped_ with unsynced := true },
       { step := some o, accepted := true, unsync := if x.unsynced then none else some 2 })
    else (x.hold c now, { refused := true })
  | .holdover =>
    if !out then
      let y := { x with integ := x.trim, lockRun := 0, state := if x.unsynced then .locking else .locked }
      let (y, cl) := y.servo c o
      (y, { accepted := true, clamp := cl })
    else if x.armed then (x.stepped_, { step := some o, accepted := true })
    else (x, { refused := true })

/-- MISS3 (R61): LOCKING and LOCKED go to HOLDOVER. -/
def Disc.miss3 (x : Disc) (c : DiscCfg) (now : Nat) : Disc × DiscDo :=
  match x.state with
  | .locking => (x.hold c now, { missing := true })
  | .locked => (x.hold c now, { missing := true })
  | _ => (x, {})

/-- HOLD_TIMEOUT (R61). -/
def Disc.holdTimeout (x : Disc) : Disc × DiscDo :=
  match x.state with
  | .holdover => ({ x with unsynced := true }, { unsync := if x.unsynced then none else some 0 })
  | _ => (x, {})

/-- An integer as a signed 64-bit quantity (R60). -/
def wrap64 (i : Int) : Int := signed (twos i 64) 64

/-- REF_LOSS (R61, R65). -/
def Disc.lose (x : Disc) (c : DiscCfg) (now : Nat) : Disc × DiscDo :=
  match x.state with
  | .free => ({ x with refLoss := true }, {})
  | .locking => ({ x.hold c now with refLoss := true }, {})
  | .locked => ({ x.hold c now with refLoss := true, unsynced := true }, { unsync := if x.unsynced then none else some 1 })
  | .holdover => ({ x with refLoss := true, unsynced := true }, { unsync := if x.unsynced then none else some 1 })

/-- REF_RETURN (R61, R65). -/
def Disc.regain (x : Disc) : Disc := { x with refLoss := false }

end Sys2Proof.Machine
end

