-- ==== Sys2Proof/Machine/Gauge.lean ====
section
/-! DEFINITION. Gauge's probes (chapter 08): scheduled and background probes (R178, R179), issue (R177), results and
their judgement (R173, R185), self-tests and verdicts (R187–R189), the reference self-test (R186), engine errors, tap
captures (R175) and replay requests (R193). -/

namespace Sys2Proof.Machine

/-- The check of an identifier. -/
def Die.check (d : Die) (id : Nat) : Option Check := d.gauge.checks.find? fun c => c.id == id

/-! ### Verdicts -/

/-- The verdict of a self-test whose 64 probes have ended (R189): VERDICT and LEVEL_CHANGE, ENG_STAT and VERDICTS. -/
def Die.testEnd (d : Die) (t : SelfTest) : Die :=
  let e := t.engine
  let d := d.onGauge fun g => { g with running := g.running.filter fun x => x.engine != e }
  let (late, p) := d.part.stageDone 0x18 0 e
  let d := { d with part := p.event 0x18 }.testBits e
  let since := match (d.eng e).lastErr with
    | some l => (t.start - l) / 1000000000
    | none => 0xFFFFFFFF
  let rep := decide ((d.eng e).lastErr.isSome ∧ since < d.part.num 0x18064)
  let v := if t.exactFail + t.replayFail ≠ 0 ∨ t.another = true ∨ t.noResult = true then 2
    else if t.unjudged ≠ 0 then 0 else if rep then 2 else 1
  let lvl := if v = 2 then 3 else min 3 (d.engLevel e + 1)
  let pin := v = 2 ∨ d.engPinned e = true
  let c := d.engCond e
  let d := d.onPart fun p =>
    let p := p.setFld (engAddr e + 4) 5 2 v
    if v = 1 then p.incHalf (engAddr e + 0x10) 0 else if v = 2 then (p.incHalf (engAddr e + 0x10) 16).setBit 0x50 5 true else p
  let d := d.gaugeRaise (engPage e) 17
    { c.rep e 5 v (leBytes 6 t.seq ++ leBytes 1 t.trigger ++
        leBytes 1 (if t.exactHalf then t.exactFail else 0xFF) ++ leBytes 1 t.replayFail ++
        leBytes 1 (match t.pattern with | none => 0 | some q => if q.tap.isSome then 2 else 1) ++
        leBytes 4 (min since 0xFFFFFFFF) ++ leBytes 4 (min 0xFFFFFFFF (d.now - t.start)) ++
        leBytes 1 (lvl + (if pin then 4 else 0) + (if rep then 8 else 0) + (if t.another then 16 else 0)) ++ [0]) with
      late := late }
  let d := if v = 0 then d else d.setEng e { d.eng e with lastErr := some t.start }
  let d := (d.setLevel e lvl 0 5 pin).tapSweep
  d.disputeJudge e (if v = 2 then some false else some true)

/-- Self-tests whose 64 probes have all ended deliver their verdicts (R189). -/
def Die.testsEnd (d : Die) : Die :=
  (d.gauge.running.filter fun t => decide (64 ≤ t.judged + t.unjudged)).foldl (fun d t => d.testEnd t) d

/-- An engine found failing (R185): PROBE_MISMATCH, and a targeted self-test. `how` is DETAIL byte 7, `want` and `got`
the expected and observed tiles, `agree` the agreeing engine. A probe of the engine's own self-test triggers none. -/
def Die.failing (d : Die) (c : Check) (e how : Nat) (want got : List Nat) (agree : Nat) (pat : Option Pattern) : Die :=
  let k := ((List.range 256).find? fun i => want.getD i 0 != got.getD i 0).getD 0
  let cond := sget (d.engCond e) c.conds e
  let d := d.gaugeRaise (engPage e) 16
    (cond.rep e c.op 0 (leBytes 6 (c.seq.getD 0) ++ leBytes 1 (c.fmt + (if c.random then 8 else 0)) ++ leBytes 1 how ++
      leBytes 2 k ++ leBytes 4 (want.getD k 0) ++ leBytes 4 (got.getD k 0) ++ leBytes 2 agree))
  if c.origin = .selftest ∧ e = c.owner then d
  else d.trigger { engine := e, trigger := if c.tap.isSome then 3 else 0, start := d.now, seq := c.seq.getD 0
                   pattern := pat }

/-- One engine's part of a settled check: its counts and history, and for the probed engine the account of the
scheduled run, the self-test or the dispute probe it belongs to. A replay request touches none of them (R193). The producing
engine of a tap replay ran no probe, so only its failure is counted. -/
def Die.settle1 (d : Die) (c : Check) (e : Nat) (pass : Bool) : Die :=
  if c.origin = .replay then d
  else
    let cond := sget (d.engCond e) c.conds e
    let d := if c.tap.isSome ∧ e = c.e ∧ pass = true then d else d.probeJudged e cond pass
    if e ≠ c.e then d
    else match c.origin with
    | .scheduled =>
      if !pass then d.onPart fun p => p.setFld (engAddr e + 4) 16 16 0
      else
        let d := d.onPart fun p => p.incHalf (engAddr e + 4) 16
        if d.part.fld 0x18060 0 16 ≤ d.part.fld (engAddr e + 4) 16 16 ∧ d.engPinned e = false ∧ 0 < d.engLevel e
        then d.setLevel e (d.engLevel e - 1) 2 1 false else d
    | .selftest => d.testJudge c (some pass) false
    | .dispute => d.disputeJudge e (some pass)
    | _ => d

/-- A check settled (R185): `bad` are the engines found failing. -/
def Die.settle (d : Die) (c : Check) (bad : List Nat) : Die :=
  (c.engines.foldl (fun d e => d.settle1 c e (!bad.contains e)) (d.dropCheck c.id)).testsEnd

/-- The pattern a failing probe leaves for the self-test's replays (R187). -/
def Check.pattern (c : Check) (expect : List Nat) : Pattern :=
  { seq := c.seq.getD 0, fmt := c.fmt, random := c.random, gdid := c.gdid, seed := c.seed, expect := expect
    tap := match c.tap with | some t => some t | none => c.src
    kept := c.tap.isNone || c.re != some expect }

/-- The generator key of a check. -/
def Check.key (c : Check) : GenKey :=
  { seed := c.seed, gdid := c.gdid, seq := c.seq.getD 0, fmt := c.fmt, random := c.random }

/-- The reference self-test started (R186): probing pauses. -/
def Die.refStart (d : Die) : Die := d.onPart fun p => p.setBit 0x18044 1 true

/-- A check set aside until the reference self-test ends (R185, R186), with REF_SUSPECT: `all` 0 two agreeing engines,
1 all differ. -/
def Die.refSuspect (d : Die) (c : Check) (all : Nat) : Die :=
  let d := d.gaugeRaise 0x18 17 ((d.engCond c.e).rep c.e (if c.origin = .selftest then 5 else if c.random then 3 else 4) 0
    (leBytes 6 (c.seq.getD 0) ++ leBytes 2 c.e ++ leBytes 2 (c.p.getD 0xFFFF) ++ leBytes 2 (c.a.getD 0xFFFF) ++
      leBytes 1 all))
  d.refStart

/-- An exact-set result judged against the reference (R173, R185). -/
def Die.judgeExact (d : Die) (c : Check) (r : Role) (res : List Nat) : Die :=
  let ref := c.key.tileC
  match r with
  | .confirm =>
    let c := { c with rp := some res }
    let e := c.re.getD []
    let p := c.p.getD 0
    if res = ref then
      (d.failing c c.e 0 ref e 0xFFFF (some (c.pattern ref))).settle c [c.e]
    else
      let d := d.suspect 0x0A10 p
      (d.putCheck { c with refWait := true }).refSuspect c (if res = e then 0 else 1)
  | _ =>
    if res = ref then
      if c.origin = .replay then
        (d.onPart fun p => (p.setBit 0x18044 2 false).setFld 0x18044 3 2 1).dropCheck c.id
      else d.settle c []
    else if c.origin = .replay then
      (d.onPart fun p => (p.setBit 0x18044 2 false).setFld 0x18044 3 2 2).dropCheck c.id
    else
      let d := d.suspect 0x0A10 c.e
      let c := { c with re := some res }
      let (q, d) := d.choosePeer c.e [c.e]
      match q with
      | none => d.arbNone c
      | some q =>
        ((d.putCheck { c with p := some q }).onPart fun p => p.inc 0x180AC).ask c.id .confirm q

/-- A full-random check or tap replay judged as far as its results allow (R185). -/
def Die.judgePair (d : Die) (c : Check) : Die :=
  match c.re, c.rp with
  | some re, some rp =>
    if re = rp then d.settle c []
    else match c.a, c.ra with
    | none, _ =>
      let d := d.suspect 0x0A10 c.e
      let (q, d) := d.choosePeer c.e c.engines
      match q with
      | none => d.arbNone c
      | some q => ((d.putCheck { c with a := some q }).onPart fun p => p.inc 0x180AC).ask c.id .arbiter q
    | some a, some ra =>
      let p := c.p.getD 0
      let d := d.suspect 0x0A10 a
      let how := if c.tap.isSome then 2 else 1
      if ra = rp then (d.failing c c.e how rp re p (some (c.pattern rp))).settle c [c.e]
      else if ra = re then (d.failing c p how re rp c.e (some (c.pattern re))).settle c [p]
      else
        let d := d.failing c c.e how rp re 0xFFFF none
        let d := d.failing c p how re rp 0xFFFF none
        let d := d.failing c a how re ra 0xFFFF none
        (d.refSuspect c 1).settle c [c.e, p, a]
    | some _, none => d.putCheck c
  | _, _ => d.putCheck c

/-- A result taken into its check (R173): `res` is the tile. -/
def Die.takeResult (d : Die) (w : Probe) (res : List Nat) : Die :=
  match d.check w.check with
  | none => d
  | some c =>
    match c.expect with
    | some want =>
      if res = want then d.settle c []
      else (d.suspect 0x0A10 c.e).settle c [c.e]
    | none =>
      if !c.random then d.judgeExact c w.role res
      else if c.origin = .replay then
        let crc := crc32 ((res.map fun x => leBytes 4 x).flatten)
        (d.onPart fun p => ((p.wr 0x180A0 crc).setBit 0x18044 2 false).setFld 0x18044 3 2 3).dropCheck c.id
      else match w.role with
      | .main => d.judgePair { c with re := some res }
      | .peer => d.judgePair { c with rp := some res }
      | _ => d.judgePair { c with ra := some res }

/-- NO_RESULT of an engine (R190): the record, a failure of the engine and a self-test of it; its check ends without
judging another engine (log entry 17). -/
def Die.noResult (d : Die) (w : Probe) : Die :=
  match d.check w.check with
  | none => d
  | some c =>
    let e := w.engine
    let role := if c.origin = .replay then 6 else if c.origin = .selftest ∧ w.role = .main then 3
      else match w.role with
        | .main => if c.origin = .background then 5 else 0
        | .peer => if c.tap.isSome then 4 else 1
        | _ => 2
    let cond := sget (d.engCond e) c.conds e
    let d := d.gaugeRaise (engPage e) 19 (cond.rep e c.op 0
      (leBytes 6 (c.seq.getD 0) ++ leBytes 1 role ++ leBytes 4 (min 0xFFFFFFFF (d.now - w.issued))))
    if c.origin = .replay then
      (d.onPart fun p => (p.setBit 0x18044 2 false).setFld 0x18044 3 2 2).dropCheck c.id
    else
      let d := (d.dropCheck c.id).probeJudged e cond false
      let own := c.origin = .selftest ∧ e = c.owner
      let d := if own then d else d.trigger { engine := e, trigger := 4, start := d.now, seq := c.seq.getD 0 }
      let d := match c.origin with
        | .selftest => if e = c.owner then d.testJudge c (some false) true else d.testJudge c none false
        | .dispute => d.disputeJudge c.e (if e = c.e then some false else none)
        | .scheduled => if e = c.e then d.onPart fun p => p.setFld (engAddr e + 4) 16 16 0 else d
        | _ => d
      d.testsEnd

/-- The deadline stage item of a probe in flight: an engine's items and its probes stand in the order of issue. -/
def Die.probeItem (d : Die) (w : Probe) : Option StageItem :=
  let k := ((d.gauge.probes.takeWhile fun x => x.tag != w.tag).filter fun x => x.engine == w.engine).length
  ((d.part.stages.filter fun i => i.page == engPage w.engine && i.unit == w.engine)[k]? : Option StageItem)

/-- A probe no longer in flight; its stage ends, delivered or, for an abandoned probe, as a LATE failure (R190). -/
def Die.probeLands (d : Die) (w : Probe) (abandoned : Bool) : Die :=
  let d := match d.probeItem w with
    | none => d
    | some i => { d with part := if abandoned then d.part.itemLost i else (d.part.itemDone i).2 }
  d.onGauge fun g => { g with probes := g.probes.filter fun x => x.tag != w.tag }

/-- Whether what a probe brings is held: its engine's page or GAUGE is FAULTED (R41). -/
def Die.probeHeld (d : Die) (e : Nat) : Bool := d.part.pstate 0x18 == .faulted || d.part.pstate (engPage e) == .faulted

/-- Whether judging a result reads the result store or the tap buffer (R174, R175): the other half of a pair, a kept result, or
a captured C. -/
def Check.reads (c : Check) (r : Role) : Bool :=
  c.expect.isSome || c.tap.isSome || (c.random && match r with
    | .main => c.rp.isSome | .peer => c.re.isSome | _ => true)

/-- PROBE_RESULT (R173, R174, R421): the probe named by the tag returns, with STATUS 0 and its tile or STATUS 1. An
exact-set result is held while the reference unit is under test (R186). `ecc` is the check result of the stored tile it is
compared with, a free word of memory 1, the tap buffer, or 2, the result store (log entry 195); a check whose tile is
uncorrectable ends unjudged (R459). -/
def Die.probeResult (d : Die) (tag status : Nat) (res : List Nat) (ecc : Ecc) : Die :=
  match d.gauge.probes.find? fun w => w.tag == tag with
  | none => d
  | some w =>
    let d := d.probeLands w false
    if d.probeHeld w.engine then d
    else if status ≠ 0 then d.noResult w
    else match d.check w.check with
    | none => d
    | some c =>
      if c.byRef && d.part.bit 0x18044 1 then d.onGauge fun g => { g with held := g.held ++ [(w, res)] }
      else if c.reads w.role then
        let word := (Config.free32 d.part.fresh).toNat % 16384
        let (e, p) := { d.part with fresh := d.part.fresh + 1 }.eccRead 0x18 word (if c.tap.isSome then 1 else 2) ecc c.op
        let d := { d with part := p }
        if e = .ue then (d.endUnjudged c).testsEnd else (d.takeResult w res).testsEnd
      else (d.takeResult w res).testsEnd

/-- An abandoned probe (R190): a LATE failure of its stage, judged NO_RESULT. -/
def Die.probeAbandoned (d : Die) (w : Probe) : Die :=
  let d := d.probeLands w true
  if d.probeHeld w.engine then d else d.noResult w

/-- PROBE_TIMEOUT (R190): no result within PROBE_TIMEOUT_US; the probe is abandoned. -/
def Die.probeTimeout (d : Die) (tag : Nat) : Die :=
  match d.gauge.probes.find? fun w => w.tag == tag with
  | none => d
  | some w => (d.onPart fun p => p.reach (w.issued + p.num 0x18070 * 1000)).probeAbandoned w

/-! ### Issue -/

/-- The claim of a waiting probe (R177): 0 arbitration, confirmation and dispute, 1 self-test, 2 scheduled, 3 tap replay
and replay request, 4 background. -/
def Check.claim (c : Check) (r : Role) : Nat :=
  match r with
  | .arbiter => 0
  | .confirm => 0
  | _ => match c.origin with
    | .dispute => 0 | .selftest => 1 | .replay => 3 | .background => 4
    | .scheduled => if c.tap.isSome then 3 else 2

/-- Whether the slot policy lets a waiting probe take a slot (R177). -/
def Die.slotOk (d : Die) (c : Check) (w : Wait) (busy : Bool) : Bool :=
  let mode := d.part.fld 0x1804C 0 2
  match c.claim w.role with
  | 0 => true
  | 1 => true
  | 2 =>
    if mode = 0 then !busy
    else if mode = 2 && decide (1 ≤ d.engLevel w.engine) then busy
    else !busy || w.steal
  | 3 => if mode = 0 then !busy else !busy || w.steal
  | _ => !busy

/-- Tiles of the result store taken (R174): the first-returned results of pairs and the kept majorities. DESIGN CHOICE (log
entry 191): a pair holds its place from its issue on, so that its first result always finds one. -/
def Die.storeUsed (d : Die) : Nat :=
  (d.gauge.checks.filter fun c => c.random && c.seq.isSome && c.tap.isNone && c.expect.isNone && c.origin != .replay).length +
    ((d.gauge.running ++ d.gauge.queue).filter fun t => match t.pattern with | some q => q.kept | none => false).length

/-- Whether a waiting probe may be issued now (R174, R186, R194): a new pair or tap replay needs a place in the result store,
an exact-set probe a good reference unit, and outside ACTIVE only a check under way and a self-test go on. -/
def Die.mayIssue (d : Die) (w : Wait) (busy : Bool) : Bool :=
  match d.check w.check with
  | none => false
  | some c => d.slotOk c w busy &&
      (c.seq.isSome || !c.random || decide (d.storeUsed < 128)) &&
      (!c.byRef || d.part.bit 0x18044 0) &&
      (d.part.active 0x18 || c.seq.isSome || c.origin == .selftest)

/-- A waiting probe issued on its engine's slot (R174, R176, R182): a tag, credit, the condition, the deadline stage. A
new check takes GAUGE_SEQ, which advances (R172). -/
def Die.issue (d : Die) (c : Check) (r : Role) (e : Nat) (busy : Bool) : Die :=
  match (List.range 512).find? fun t => d.gauge.probes.all fun w => w.tag != t with
  | none => d
  | some tag =>
    let seq := d.part.num64 0x1807C % 2 ^ 48
    let d := if c.seq.isSome then d else d.onPart fun p => p.setNum64 0x1807C ((seq + 1) % 2 ^ 48)
    let cond := d.engCond e
    let c := { c with seq := some (c.seq.getD seq), conds := sput {} c.conds e cond }
    let d := (d.spend e).putCheck c
    let d := d.onGauge fun g => { g with
      probes := g.probes ++ [{ tag := tag, check := c.id, role := r, engine := e, issued := d.now }]
      waits := g.waits.filter fun w => !(w.check == c.id && w.role == r && w.engine == e) }
    let (a, b) := match (match c.tap with | some t => some t | none => c.src) with
      | some t => ((List.range 256).map fun i => Mem.rdLE d.gauge.tapMem (3072 * t + i * (fmtBits c.fmt / 8)) (fmtBits c.fmt / 8),
          (List.range 256).map fun i => Mem.rdLE d.gauge.tapMem (3072 * t + 1024 + i * (fmtBits c.fmt / 8)) (fmtBits c.fmt / 8))
      | none => (c.key.tileA, c.key.tileB)
    let d := d.onPart fun p =>
      let p := if busy then p.inc 0x180A4 else p.inc 0x180A8
      let p := p.stageStart (engPage e) 0 e c.op p.now
      { p with out := p.out ++ [Out.probe e tag c.fmt busy a b] }
    if c.origin = .scheduled ∧ (r = .main ∨ (r = .peer ∧ c.tap.isSome)) then
      d.setEng c.e { d.eng c.e with since := some d.now }
    else d

/-- A background probe (R178): exact-set and full-random in turn, the formats in turn, at most GAUGE_BG_MAX a second. DESIGN
CHOICE (log entry 193): the engine that offers an idle slot is the next in the round, since those before it offered none. -/
def Die.background (d : Die) (e : Nat) : Die :=
  let sec := d.now / 1000000000
  let n := if d.gauge.bgRate.1 = sec then d.gauge.bgRate.2 else 0
  let k := d.gauge.bgCount
  let random := decide (k % 2 = 1)
  let ok := if random then d.part.bit 0x18040 1 && decide (d.storeUsed < 128) else d.exactOk
  if !d.part.bit 0x18040 3 || decide (d.part.num 0x1806C ≤ n) || !ok || !d.engProbed e then d
  else match d.formatAt e (k / 2) with
  | none => d
  | some f =>
    let d := d.onGauge fun g => { g with bgRate := (sec, n + 1), bgCount := k + 1 }
    let id := d.gauge.nextId
    let d := d.startCheck (d.newCheck .background random e f)
    match d.check id with
    | none => d
    | some c => d.issue c .main e false

/-- PROBE_ISSUE (R177): engine `e` offers a slot, busy or idle, with the occupancy `load` its busy indication reports.
The first permitted claim on the engine takes it; an idle slot that none claims goes to background probing. -/
def Die.offerSlot (d : Die) (e : Nat) (busy : Bool) (load : Nat) : Die :=
  let d := d.onPart fun p => p.setFld (engAddr e + 0x1C) 8 8 load
  if !(d.part.active 0x18 || d.part.pstate 0x18 == .draining) || d.part.bit 0x18044 1 || !d.engPresent e ||
      !d.part.active (engPage e) || !d.hasCredit e then d
  else
    let ws := d.gauge.waits.filter fun w => w.engine == e && d.mayIssue w busy
    let pick (k : Nat) := ws.find? fun w => match d.check w.check with
      | some c => c.claim w.role == k
      | none => false
    match (match pick 0 with
      | some w => some w
      | none => match pick 1 with
        | some w => some w
        | none => match pick 2 with
          | some w => some w
          | none => match pick 3 with
            | some w => some w
            | none => pick 4) with
    | some w => match d.check w.check with
      | some c => d.issue c w.role e busy
      | none => d
    | none => if busy || !d.part.active 0x18 then d else d.background e

/-- STEAL_WAIT_EXPIRED (R177): the engine's waiting probes that have waited STEAL_WAIT_US may steal a busy slot. -/
def Die.stealWait (d : Die) (e : Nat) : Die :=
  let wait := d.part.fld 0x1804C 16 16 * 1000
  let d := match d.gauge.waits.find? fun w => w.engine == e && !w.steal with
    | some w => d.onPart fun p => p.reach (w.asked + wait)
    | none => d
  d.onGauge fun g => { g with waits := g.waits.map fun w =>
    if w.engine = e ∧ w.asked + wait ≤ d.now then { w with steal := true } else w }

/-! ### Scheduled probes -/

/-- The unissued scheduled check of an engine, if any. -/
def Die.unissued (d : Die) (e : Nat) : Option Check :=
  d.gauge.checks.find? fun c => c.origin == .scheduled && c.e == e && c.seq.isNone

/-- Whether an engine's scheduled probe is still unissued (R179): it waits for a slot, or its tap replay for a capture. -/
def Die.starves (d : Die) (e : Nat) : Bool := (d.unissued e).isSome || d.gauge.tapReq.contains e

/-- The unissued scheduled probe of an engine replaced, counted and recorded (R179). -/
def Die.starve (d : Die) (e : Nat) : Die :=
  let d := match d.unissued e with | some c => d.dropCheck c.id | none => d
  (d.onGauge fun g => { g with tapReq := g.tapReq.erase e }).onPart fun p =>
    (p.inc 0x180B8).raise 0x18 20 ((d.engCond e).rep e 1 0 (leBytes 2 e ++ leBytes 1 (d.engLevel e)))

/-- PROBE_DUE (R179): the engine's scheduled probe falls due; one still unissued is replaced and STARVED. `ecc` is the check
result of the history word that its interval depends on (R183); an uncorrectable one faults the page (R459). -/
def Die.probeDue (d : Die) (e : Nat) (ecc : Ecc) : Die :=
  match (d.eng e).since with
  | none => d
  | some t0 =>
    if !d.part.active 0x18 || !d.engProbed e then d
    else
      let due := t0 + d.interval e
      let d := d.onPart fun p => p.reach due
      let (x, p) := d.part.eccRead 0x18 (2 * (e * 8 + tbinOf (d.engTemp e))) 0 ecc 1
      let d := { d with part := if x = .ue then p.pageFault 0x18 0x04 else p }
      if x = .ue then d
      else
      let d := if d.starves e then d.starve e else d
      let x := d.eng e
      let n := x.count
      let d := d.setEng e { x with since := some due, count := n + 1, fmtPos := x.fmtPos + 1 }
      let exactOk := d.exactOk
      let randomOk := d.part.bit 0x18040 1
      let tapOk := d.part.bit 0x18040 2 && d.part.bit (engAddr e) 2 && decide (e < 128) && d.ties.opTap
      match d.formatAt e x.fmtPos with
      | none => d
      | some f =>
        if n % 4 = 3 ∧ tapOk = true then
          (d.onGauge fun g => { g with tapReq := g.tapReq ++ [e] }).onPart fun p =>
            { p with out := p.out ++ [Out.tapReq e] }
        else
          let random := decide (n % 2 = 1)
          if random && randomOk || !random && exactOk then d.startCheck (d.newCheck .scheduled random e f)
          else if random && exactOk || !random && randomOk then d.startCheck (d.newCheck .scheduled (!random) e f)
          else d

/-- TAP_CAPTURE (R175, R421): the production tile awaited of matrix engine `e` is stored in a free tap entry, A, B and C
at 1 KiB each, and its replay waits for a peer's slot. While no entry is free the request stands (log entry 192). -/
def Die.tapCapture (d : Die) (e fmt : Nat) (a b c : List Nat) : Die :=
  if ¬ (e ∈ d.gauge.tapReq) ∨ ¬ (fmt ∈ d.formats e) then d
  else
    match (List.range 8).find? fun t => (sget none d.gauge.taps t).isNone with
    | none => d
    | some t =>
      let d := d.onGauge fun g => { g with tapReq := g.tapReq.erase e }
      let w := fmtBits fmt / 8
      let img (xs : List Nat) (w : Nat) : List Byte := padTo 1024 ((xs.take 256).map fun x => leBytes w x).flatten
      let d := d.onGauge fun g => { g with
        taps := sput none g.taps t (some (e, fmt))
        tapMem := Mem.wrBytes g.tapMem (3072 * t) (img a w ++ img b w ++ img c 4) }
      let ck := { d.newCheck .scheduled true e fmt with id := d.gauge.nextId, tap := some t, re := some (c.take 256) }
      let d := d.onGauge fun g => { g with nextId := g.nextId + 1, checks := g.checks ++ [ck] }
      let (q, d) := d.choosePeer e [e]
      match q with
      | none => d.arbNone ck
      | some q => (d.putCheck { ck with p := some q }).ask ck.id .peer q

/-! ### Self-tests -/

/-- The 64 probes of a self-test (R187): exact-set probes interleaved with replays of the failing pattern; without a
pattern the replays, and without a good reference unit the exact-set probes, are full-random. -/
def Die.testProbes (d : Die) (t : SelfTest) : Die :=
  (List.range 64).foldl (fun d i =>
    match d.formatAt t.engine (i / 2) with
    | none => d.testJudge { d.newCheck .selftest true t.engine 0 with owner := t.engine } none false
    | some f =>
      let c := if i % 2 = 0 then d.newCheck .selftest (!t.exactHalf) t.engine f
        else match t.pattern with
          | some q => { d.newCheck .selftest q.random t.engine q.fmt with
              seq := some q.seq, gdid := q.gdid, seed := q.seed, expect := some q.expect, src := q.tap }
          | none => d.newCheck .selftest true t.engine f
      d.startCheck { c with owner := t.engine, half := decide (i % 2 = 1) }) d

/-- SELFTEST_START (R188): the oldest queued self-test starts while fewer than 8 run, GAUGE is ACTIVE and the reference
unit is not under test. -/
def Die.testStart (d : Die) : Die :=
  match d.gauge.queue with
  | [] => d
  | t :: rest =>
    if 8 ≤ d.gauge.running.length ∨ d.part.active 0x18 = false ∨ d.part.bit 0x18044 1 = true then d
    else
      let t := { t with exactHalf := d.part.bit 0x18044 0 }
      let d := d.onGauge fun g => { g with queue := rest, running := g.running ++ [t] }
      ((d.testBits t.engine).testProbes t).testsEnd

/-- ENGINE_ERR (R187, R194): counted and recorded, a suspect to Oxbow, and a self-test trigger. -/
def Die.engineErr (d : Die) (e code : Nat) : Die :=
  let d := d.onPart fun p => (p.inc (engAddr e + 0xC)).setNum64 (engAddr e + 0x14) p.now
  let d := d.gaugeRaise (engPage e) 18 ((d.engCond e).rep e 0 0 (leBytes 2 code))
  (d.suspect 0x0A12 e).trigger { engine := e, trigger := 1, start := d.now }

/-- The reference self-test ends (R186): a pass restores REF_OK and judges the held results; a failure raises
GAUGE_REF_FAULT, clears REF_OK, discards the held results uncounted and stops exact-set probes. Of the self-tests and dispute
probes under way the exact-set probes not yet issued become full-random, and the others end unjudged; a replay request not
yet issued waits on, and one whose result is lost ends without one (log entry 196). -/
def Die.refDone (d : Die) (pass : Bool) (tile mac : Nat) : Die :=
  if !d.part.bit 0x18044 1 then d
  else
    let d := d.onPart fun p => (p.setBit 0x18044 1 false).setBit 0x18044 0 pass
    let held := d.gauge.held
    let waiting := d.gauge.checks.filter fun c => c.refWait
    let d := d.onGauge fun g => { g with held := [] }
    if pass then
      let d := waiting.foldl (fun d c =>
        let p := c.p.getD 0
        let ref := c.key.tileC
        let d := d.failing c c.e 0 ref (c.re.getD []) 0xFFFF (some (c.pattern ref))
        let d := d.failing c p 0 ref (c.rp.getD []) 0xFFFF (some (c.pattern ref))
        d.settle c [c.e, p]) d
      (held.foldl (fun d h => d.takeResult h.1 h.2) d).testsEnd
    else
      let d := d.gaugeRaise 0x18 16 { opCode := 7, detail := leBytes 1 tile ++ leBytes 1 mac }
      let exact := d.gauge.checks.filter Check.byRef
      (exact.foldl (fun d c =>
        let begun := d.inFlight c.id || c.re.isSome || held.any fun h => h.1.check == c.id
        match c.origin with
        | .replay =>
          if begun then (d.onPart fun p => (p.setBit 0x18044 2 false).setFld 0x18044 3 2 0).dropCheck c.id else d
        | .selftest =>
          if begun then d.endUnjudged c
          else (d.onGauge fun g => { g with running := g.running.map fun t =>
            if t.engine = c.owner then { t with exactHalf := false } else t }).replaceCheck c
        | .dispute => if begun then d.endUnjudged c else d.replaceCheck c
        | _ => d.endUnjudged c) d).testsEnd

/-! ### Page states and commands -/

/-- The engines of a page, or of all pages, begin their schedules afresh (R179). -/
def Die.scheduleFrom (d : Die) (es : List Nat) : Die :=
  es.foldl (fun d e =>
    if d.engPresent e && d.part.active 0x18 && d.part.active (engPage e) then
      d.setEng e { d.eng e with since := some d.now }
    else d) d

/-- Whether a check has begun: a probe of it has been issued. -/
def Die.begun (d : Die) (c : Check) : Bool :=
  if c.origin = .replay then d.inFlight c.id else c.seq.isSome

/-- Checks discarded with their waiting probes; a replay request among them ends without a result. -/
def Die.dropChecks (d : Die) (t : Check → Bool) : Die :=
  let gone := d.gauge.checks.filter t
  let d := if gone.any fun c => c.origin == .replay then
      d.onPart fun p => (p.setBit 0x18044 2 false).setFld 0x18044 3 2 0 else d
  gone.foldl (fun d c => d.dropCheck c.id) d

/-- GAUGE leaves ACTIVE by DRAIN (R194): queued triggers and probes not yet issued go; a dispute probe waits on (R212). -/
def Die.gaugeDrain (d : Die) : Die :=
  let qs := (d.gauge.queue.filter fun t => !t.dispute).map SelfTest.engine
  let d := d.dropChecks fun c => !d.begun c && c.origin != .selftest && c.origin != .dispute
  let d := d.onGauge fun g => { g with
    queue := g.queue.filter fun t => t.dispute
    tapReq := []
    engs := g.engs.foldl (fun m x => sput {} m x.1 { x.2 with since := none }) [] }
  let d := d.onPart fun p => qs.foldl (fun p e => p.stageDrop 0x18 0 e) p
  qs.foldl (fun d e => d.testBits e) d.tapSweep

/-- GAUGE leaves FAULTED by DRAIN (R41): the held checks and self-tests are discarded too, and a dispute probe starts afresh
once the page is ACTIVE (R212). -/
def Die.gaugeDiscard (d : Die) : Die :=
  let d := d.gaugeDrain
  let es := (d.gauge.running ++ d.gauge.queue).map SelfTest.engine
  let d := (d.dropChecks fun _ => true).onGauge fun g => { g with
    running := [], queue := [], held := []
    dispute := g.dispute.map fun x => { tag := x.tag, unit := x.unit } }
  let d := d.onPart fun p => { p with stages := p.stages.filter fun i => !(i.page == 0x18) }
  es.foldl (fun d e => d.testBits e) d.tapSweep

/-- A GAUGE_ENG page leaves FAULTED by DRAIN (R41): the checks whose results the fault has held end unjudged. -/
def Die.engDiscard (d : Die) (page : Nat) : Die :=
  let stuck := d.gauge.checks.filter fun c =>
    (c.engines.any fun e => engPage e == page) && !d.inFlight c.id && !(d.gauge.waits.any fun w => w.check == c.id) &&
      !c.refWait && !(d.gauge.held.any fun h => h.1.check == c.id)
  (stuck.foldl (fun d c => d.endUnjudged c) d).testsEnd

/-- Whether GAUGE's drain is complete (R194): nothing in flight, no self-test running; dispute probes not yet issued wait. -/
def Die.gaugeIdle (d : Die) : Bool :=
  d.gauge.probes.isEmpty && d.gauge.running.isEmpty && d.gauge.waits.all fun w => match d.check w.check with
    | some c => c.origin == .dispute && c.seq.isNone
    | none => true

/-- CTL.REPLAY_GO (R193). -/
def Die.replayGo (d : Die) (w : W32) : Die :=
  let cfg := d.part.num 0x1809C
  let e := bitsOf cfg 0 10
  let f := bitsOf cfg 10 3
  if d.part.bit 0x18044 2 || !engOk e || !(d.formats e).contains f then
    d.onPart fun p => p.accessErr 0x18 0x18040 w true
  else
    let c := { d.newCheck .replay (cfg.testBit 13) e f with
      gdid := d.part.num 0x18090, seq := some (d.part.num64 0x18094 % 2 ^ 48) }
    (d.onPart fun p => (p.setBit 0x18044 2 true).setFld 0x18044 3 2 0).startCheck c

/-- SELFTEST_REQ written (R187, R194): refused outside ACTIVE and ENABLING. -/
def Die.selftestReq (d : Die) (w : W32) : Die :=
  let e := bitsOf w.toNat 0 10
  let st := d.part.pstate 0x18
  if (st != .active && st != .enabling) || !engOk e then d.onPart fun p => p.accessErr 0x18 0x1808C w true
  else d.trigger { engine := e, trigger := 2, start := d.now }

/-- A SELFTEST_REQ cell (R187, R212): one that carries the dispute tag in force is merged with its probe; any other is a
targeted self-test. -/
def Die.selftestCell (d : Die) (engine tag : Nat) : Die :=
  if d.disputed && d.part.fld 0x8044 16 16 == tag then d
  else if engOk engine then d.trigger { engine := engine, trigger := 2, start := d.now }
  else d

/-- ENG_CTL.LEVEL_WR (R181): LEVEL_SET, with PINNED cleared when UNPIN is also 1. -/
def Die.levelWrite (d : Die) (e : Nat) (w : W32) : Die :=
  if d.engPresent e then
    d.setLevel e (bitsOf w.toNat 4 2) 3 0 (d.engPinned e && !wbit w 7)
  else d

end Sys2Proof.Machine
end

