-- ==== Sys2Proof/Machine/Scoring.lean ====
section
/-! DEFINITION. A window's way from Spring's close to its record (R21): deltas ready (R110, R136), features ready (R126,
R137, R138), scores delivered (R153, R154), and the window record (R113, R114). -/

namespace Sys2Proof.Machine

/-- The sections of a window record under its configuration (R113, R114). -/
def WinJob.sections (j : WinJob) (scores : List Byte) : List (List Byte) :=
  let on (i : Nat) : Bool := j.cfg.ctl.toNat.testBit i
  let sel := j.cfg.selGen.toNat % 65536
  let late (i : Nat) : Bool := j.lateMask.testBit i
  let pts := (List.range 512).filter fun i => (j.cfg.hpSel.getD (i / 32) 0).toNat.testBit (i % 32)
  [section_ 0x01 (late 0) 256 sel
    ((List.range 256).map fun s => leBytes 4 (j.delta (aonEntry j.ctx.aon s))).flatten] ++
  (if on 3 then [section_ 0x02 (late 0) pts.length sel
    (pts.map fun i => leBytes 2 (sget (hpMissing i) j.health i).toNat).flatten] else []) ++
  (if on 4 then [match j.features with
    | none => section_ 0x03 (late 1) 0 sel []
    | some ws => section_ 0x03 (late 1) j.nfeat sel ((ws.take j.nfeat).map fun w => leBytes 2 w).flatten] else []) ++
  (if on 5 then [section_ 0x04 (late 2) 4 sel scores] else []) ++
  (if on 6 then [section_ 0x05 (late 0) 1 sel
    (leBytes 2 j.lateMask ++ leBytes 2 j.heldAt ++ leBytes 4 j.lostAt ++ leBytes 2 (min 0xFFFF j.steps) ++
      leBytes 4 j.lastStep ++ leBytes 4 (min 0xFFFFFFFF j.lastStepOff))] else [])

/-- The window record of a window and its score entries (R113). -/
def WinJob.windowRecord (j : WinJob) (scores : List Byte) : Rec :=
  { kind := .window, tag := j.index
    bytes := buildRecord j.gdid 0x01 j.flags j.index j.start j.len j.partition 0 (j.sections scores) }

/-- The entries of the window at the front of Eddy's queue delivered together (R154), with Eddy's last scores, its
EVENT_COUNT, its observation requests (R156) and the window record. The deadline stage of a window that no slot scores any
more, because its models have broken since, is withdrawn unless it has missed already. -/
def Die.edDeliver (d : Die) (times : List Nat) (reads : List (Nat × Nat × Ecc)) : Die :=
  match d.eddy.queue with
  | [] => d
  | j :: rest =>
    let d := { d with eddy := { d.eddy with queue := rest } }
    let item := if j.staged then d.part.stageFind 0x10 0 0 else none
    let willScore := d.edScores j
    let due := match item with
      | some i => i.start + i.deadline
      | none => 18446744073709551615
    let (es, d) := (List.range 4).foldl (fun (r : List SlotEntry × Die) s =>
      let rd := (reads.find? fun x => x.1 == s).getD (s, 0x80, .ok)
      let (e, d) := r.2.edSlot j due s (times.getD s 0) rd.2.1 rd.2.2
      (r.1 ++ [e], d)) ([], d)
    let scored := es.any SlotEntry.scored
    let d := match item with
      | none => d
      | some i => { d with part := if willScore || i.missed then (d.part.itemDone i).2 else d.part.stageDrop 0x10 0 0 }
    let d := if scored then d.onPart fun p => p.event 0x10 else d
    let mask (f : SlotEntry → Bool) : Nat :=
      ((List.range 4).map fun s => if (es[s]?.map f).getD false then 2 ^ s else 0).sum
    let last : LastScores :=
      { window := j.index, valid := mask SlotEntry.valid, alarm := mask SlotEntry.alarm
        residues := ((List.range 4).map fun s => (es[s]?.map SlotEntry.residue).getD 0 * 8 ^ s).sum
        marks := mask SlotEntry.mark, scores := es.map SlotEntry.score }
    let d := { d with eddy := { d.eddy with last := last } }
    let d := es.foldl (fun d e => match e.request with | some x => d.eddyRequest x | none => d) d
    let j := { j with lateMask := if es.any SlotEntry.late then j.lateMask ||| 4 else j.lateMask }
    let d := d.edFinished j.index
    if j.record then d.deliverWindow (j.windowRecord (es.map SlotEntry.bytes).flatten) else d

/-- Windows at the front of Eddy's queue that no slot is to score delivered at once (R153); while the page is FAULTED
the window in flight is held (R165). `f` bounds the windows queued. -/
def Die.edFlush : Nat → Die → Die
  | 0, d => d
  | f + 1, d =>
    match d.eddy.queue with
    | [] => d
    | j :: _ =>
      if d.edScores j || d.part.pstate 0x10 == .faulted then d else Die.edFlush f (d.edDeliver [] [])

/-- All such windows at the front delivered. -/
def Die.edFlushAll (d : Die) : Die := Die.edFlush (d.eddy.queue.length + 1) d

/-- The vector of a window handed to Eddy (R152). -/
def Die.toEddy (d : Die) (j : WinJob) : Die := d.edTake j |>.edFlushAll

/-- Windows at the front of Riffle's queue whose features are absent handed on at once, in window order (R136, R137). -/
def Die.rifFlush : Nat → Die → Die
  | 0, d => d
  | f + 1, d =>
    match d.riffle.queue with
    | [] => d
    | j :: rest =>
      if j.absent then
        let d := { d with riffle := { d.riffle with queue := rest } }
        Die.rifFlush f ((d.rifServed j.index).toEddy j)
      else d

/-- All such windows at the front handed on. -/
def Die.rifFlushAll (d : Die) : Die := Die.rifFlush (d.riffle.queue.length + 1) d

/-- DELTAS_READY (R110): Spring's oldest close completes, within its deadline or late, and its window goes to Riffle. While the
page is FAULTED the close is held (R41). DESIGN CHOICE (log entry 188): INJECTED of the window's records tells of injections
into its counters and its close. -/
def Die.deltasReady (d : Die) : Die :=
  match d.spring.closing with
  | [] => d
  | j :: rest =>
    if d.part.pstate 0x40 = .faulted then d
    else
      let inj := match d.part.stageFind 0x40 0 0 with | some i => i.injected | none => false
      let (late, p) := d.part.stageDone 0x40 0 0
      let d := { d with part := p, spring := { d.spring with closing := rest } }
      let j := { j with lateMask := if late then j.lateMask ||| 1 else j.lateMask, injected := j.injected || inj }
      (d.rifTake j).rifFlushAll

/-- FEATURES_READY (R126): Riffle finishes the window at the front of its queue. `word` and `ecc` give the check result
of its bank read; an uncorrectable one faults the page, or from the former bank costs that window alone (R138). -/
def Die.featuresReady (d : Die) (word : Nat) (ecc : Ecc) : Die :=
  match d.riffle.queue with
  | [] => d
  | j :: rest =>
    if j.absent || d.part.pstate 9 == .faulted then d
    else
      let former := decide (j.bank ≠ d.rifBank)
      let (e, p) := d.part.eccRead 9 word j.bank ecc 0
      let d := { d with part := p }
      let m := d.riffle.bank j.bank
      let (ws, cl) := featureVector m j
      let done := { j with features := some ws, nfeat := imgNfeat m, progId := Mem.rdLE m 12 4 }
      if e = .ue then
        if former then
          let d := { d with riffle := { d.riffle with queue := { j with absent := true } :: rest }
                            part := d.part.stageDropNth 9 0 0 }
          d.rifFlushAll
        else
          let d := d.onPart fun p => p.pageFault 9 0x04
          { d with riffle := { d.riffle with held := some done } }.rifAbsentAll.rifFlushAll
      else
        let (late, p) := d.part.stageDone 9 0 0
        let d := { d with part := (p.rifCounts j.index ws cl).event 9, riffle := { d.riffle with queue := rest } }
        let done := { done with lateMask := if late then done.lateMask ||| 2 else done.lateMask }
        ((d.rifServed j.index).toEddy done).rifFlushAll

/-- SCORES_DELIVERED (R154): the last scored slot of the window at the front completes. `times` are the slots'
completion times in ns after the window's close, `reads` the check results of model reads that were not clean. -/
def Die.scoresDelivered (d : Die) (times : List Nat) (reads : List (Nat × Nat × Ecc)) : Die :=
  match d.eddy.queue with
  | [] => d
  | j :: _ =>
    if d.part.pstate 0x10 == .faulted then d
    else
      let last := (List.range 4).foldl (fun m s => match j.model s with
        | some h => if d.edReason j s h = 0 then max m (times.getD s 0) else m
        | none => m) 0
      let d := d.onPart fun p => p.reach (j.close + last)
      (d.edDeliver times reads).edFlushAll

/-- DRAIN of EDDY out of FAULTED (R165): the held and queued vectors are delivered as NO_SCORE ABSENT. -/
def Die.edRelease (d : Die) : Die :=
  let d := { d with
    eddy := { d.eddy with queue := d.eddy.queue.map fun j => { j with eddyOk := false, staged := false } }
    part := { d.part with stages := d.part.stages.filter fun i => !(i.page == 0x10) } }
  (List.range d.eddy.queue.length).foldl (fun d _ => d.edDeliver [] []) d

/-- DRAIN of SPRING out of FAULTED (R41): the windows held in their close are discarded and counted, and no bank or model waits
for them any longer. -/
def Die.springDiscard (d : Die) : Die :=
  let js := d.spring.closing
  let d := js.foldl (fun d j => (d.rifServed j.index).edFinished j.index) (d.onSpring fun s => { s with closing := [] })
  d.onPart fun p =>
    { p.incBy 0x40068 (js.filter fun j => j.record).length with
      stages := p.stages.filter fun i => !(i.page == 0x40 && i.stage == 0) }

end Sys2Proof.Machine
end

