-- ==== Sys2Proof/Machine/Meander.lean ====
section
/-! DEFINITION. Meander (chapter 11): trace packets (R244–R248), frames and sinks (R249–R252), the buffer and its trigger
(R253–R255), comparators (R257), core debug states (R258, R259) and the cross-halt (R260). -/

namespace Sys2Proof.Machine

/-- The MEANDER_CORE page of a core. -/
def corePage (k : Nat) : Nat := 0x100 + k
/-- The byte offset of a core's page. -/
def coreAddr (k : Nat) : Nat := (0x100 + k) * 0x1000
/-- The die with its Meander state changed. -/
def Die.onMeander (d : Die) (f : MeanderState → MeanderState) : Die := { d with meander := f d.meander }
/-- A core's stream. -/
def Die.core (d : Die) (k : Nat) : CoreTrace := sget {} d.meander.cores k
/-- A core's stream set, with FIFO_LEVEL. -/
def Die.setCore (d : Die) (k : Nat) (c : CoreTrace) : Die :=
  (d.onMeander fun m => { m with cores := sput {} m.cores k c }).onPart fun p =>
    p.setFld (coreAddr k + 0x48) 0 13 c.fifo.length

/-- BUF_STAT.STATE: 0 OFF, 1 WRAPPING, 2 POST, 3 FULL. -/
def Die.bufState (d : Die) : Nat := d.part.fld 0x140048 0 2
/-- The port takes frames (R250). -/
def Die.sinkPort (d : Die) : Bool := d.part.active 0x140 && d.part.bit 0x140040 2
/-- The buffer counts as a sink (R250). -/
def Die.sinkBuf (d : Die) : Bool := d.part.active 0x140 && d.part.bit 0x140040 3 && decide (d.bufState ≠ 0)
/-- A core traces (R250). -/
def Die.tracing (d : Die) (k : Nat) : Bool :=
  d.part.bit (coreAddr k + 0x40) 0 && d.part.active (corePage k) && (d.sinkPort || d.sinkBuf)

/-! ### Packets -/

/-- Stall asserted once the FIFO reaches 3,072 bytes with STALL_EN (R252). -/
def Die.stallCheck (d : Die) (k : Nat) : Die :=
  let a := coreAddr k
  if d.part.bit (a + 0x40) 3 && !d.part.bit (a + 0x44) 8 && decide (3072 ≤ (d.core k).fifo.length) then
    (d.setCore k { d.core k with stallSince := d.now }).onPart fun p =>
      { p.setBit (a + 0x44) 8 true with out := p.out ++ [Out.stall k true] }
  else d

/-- STAT.DROPPING of a core. -/
def Die.dropping (d : Die) (k : Nat) : Bool := d.part.bit (coreAddr k + 0x44) 9

/-- Whether `n` bytes enter a core's FIFO whole (R252): ordinary packets stay out of the reserve and out of a stream that is
dropping; `keep` packets come from the reserve. -/
def Die.hasRoom (d : Die) (k : Nat) (keep : Bool) (n : Nat) : Bool :=
  decide ((d.core k).fifo.length + n ≤ if keep then 4096 else 4032) && (keep || !d.dropping k)

/-- Packets discarded whole (R252): every later one is discarded too until the FIFO has drained. -/
def Die.discard (d : Die) (k n : Nat) : Die :=
  let c := d.core k
  let d := d.onPart fun p => (p.incWrap (coreAddr k + 0x4C) n).setBit (coreAddr k + 0x44) 9 true
  d.setCore k { c with lost := c.lost + n, lostSince := if c.lost = 0 then d.now else c.lostSince }

/-- A packet as FIFO bytes that enter at `t`: its first byte is a header. -/
def packetBytes (t : Nat) : List Byte → List FifoByte
  | [] => []
  | b :: bs => ⟨b, true, t⟩ :: bs.map fun x => ⟨x, false, t⟩

/-- Packets put into a core's FIFO together, or discarded whole (R252). A reserve packet that even the full FIFO cannot hold
is lost like another (log entry 200). -/
def Die.put (d : Die) (k : Nat) (keep : Bool) (ps : List (List Byte)) : Die :=
  let n := ps.flatten.length
  if d.hasRoom k keep n then
    let c := d.core k
    ((d.onPart fun p => p.incWrap (coreAddr k + 0x4C) n).setCore k
      { c with fifo := c.fifo ++ (ps.map (packetBytes d.now)).flatten, sinceSync := c.sinceSync + n }).stallCheck k
  else d.discard k n

/-- The address a SYNC carries: that of the next instruction to retire, which no tap record gives; a free value (log
entry 18). -/
def Die.pcWord (d : Die) : Nat × Die :=
  let (a, p) := d.part.draw32
  let (b, p) := p.draw32
  (a.toNat + 4294967296 * b.toNat, { d with part := p })

/-- A SYNC packet whose TIME is `t` (R246, R247). -/
def Die.syncAt (d : Die) (k reason t : Nat) : Die :=
  let (pc, d) := d.pcWord
  let ok := d.hasRoom k true 18
  let d := d.put k true [[0x01] ++ leBytes 1 reason ++ leBytes 8 pc ++ leBytes 8 t]
  if ok then d.setCore k { d.core k with sinceSync := 18, lastTime := t, lastInd := pc, lastData := none } else d

/-- A SYNC packet now. -/
def Die.sync (d : Die) (k reason : Nat) : Die := d.syncAt k reason d.now

/-- A TIMESTAMP packet of an event at `t` (R246, R248). -/
def Die.stampAt (d : Die) (k t : Nat) : Die :=
  let c := d.core k
  let ok := d.hasRoom k true 5
  let d := d.put k true [[0x02] ++ leBytes 4 (min 0xFFFFFFFF (t - c.lastTime))]
  if ok then d.setCore k { d.core k with lastTime := t } else d

/-- The OVERFLOW of a core's loss (R252): DROP_BYTES, OVERFLOW_COUNT and TRACE_DROP. -/
def Die.overflow (d : Die) (k : Nat) : Die :=
  let a := coreAddr k
  let c := d.core k
  let d := d.onPart fun p => (((p.setBit (a + 0x44) 9 false).inc (a + 0x54)).incBy (a + 0x50) c.lost).raise
    (corePage k) 16 { unit := k, opCode := 1, detail := leBytes 4 (min 0xFFFFFFFF c.lost) ++ leBytes 8 c.lostSince }
  (d.setCore k { c with lost := 0 }).put k true [[0x0C] ++ leBytes 4 (min 0xFFFFFFFF c.lost)]

/-- The stream's first packet at its sinks (R247, R250): OVERFLOW for bytes lost meanwhile, then SYNC reason 4. -/
def Die.startStream (d : Die) (k : Nat) : Die :=
  if (d.core k).started then d
  else
    let d := d.setCore k { d.core k with started := true }
    (if (d.core k).lost = 0 then d else d.overflow k).sync k 4

/-- The periodic SYNC and TIMESTAMP that `n` more bytes of an event at `t` call for (R247, R248): a SYNC starts before the
stream has grown by more than SYNC_BYTES. Neither follows while the core is in a low-power state (R256). -/
def Die.periodic (d : Die) (k n t : Nat) : Die :=
  if d.part.bit (coreAddr k + 0x44) 7 then d
  else
    let due (d : Die) : Bool := decide ((d.core k).lastTime + d.part.num 0x140068 ≤ t)
    let d := if d.part.fld 0x14006C 0 12 < (d.core k).sinceSync + n + (if due d then 5 else 0) then d.syncAt k 0 t else d
    if due d then d.stampAt k t else d

/-- Ordinary packets of an event at `t` (R246–R248, R252): `mk` forms them for the stream as it stands behind a periodic
SYNC, and `upd` is what they change in it. In a stream that is dropping, and where they would enter the reserve, they are
discarded whole. -/
def Die.packet (d : Die) (k t : Nat) (mk : Die → List (List Byte)) (upd : CoreTrace → CoreTrace) : Die :=
  let d := d.startStream k
  if d.hasRoom k false (mk d).flatten.length then
    let d := d.periodic k (mk d).flatten.length t
    let ok := d.hasRoom k false (mk d).flatten.length
    let d := d.put k false (mk d)
    if ok then d.setCore k (upd (d.core k)) else d
  else d.discard k (mk d).flatten.length

/-- The BRANCH packet of held outcomes (R246). -/
def branchByte (hs : List Bool) : List Byte :=
  [BitVec.ofNat 8 (0x80 + 2 ^ hs.length + hs.foldl (fun n b => 2 * n + if b then 1 else 0) 0)]

/-- The held outcomes as a BRANCH packet (R246): its event is its youngest outcome, so that every outcome lies within
TS_PERIOD_NS of the stream's last time (R248). -/
def Die.flushBranch (d : Die) (k : Nat) : Die :=
  let c := d.core k
  if c.held.isEmpty then d
  else (d.setCore k { c with held := [] }).packet k c.heldAt (fun _ => [branchByte c.held]) id

/-- One outcome taken: a BRANCH goes out at six (R246). -/
def Die.outcome (d : Die) (k : Nat) (taken : Bool) : Die :=
  let d := d.setCore k { d.core k with held := (d.core k).held ++ [taken], heldAt := d.now }
  if 6 ≤ (d.core k).held.length then d.flushBranch k else d

/-- A packet that a TIMESTAMP stands before (R248): HALT, STALL or TRIGGER, behind the held outcomes. -/
def Die.stamped (d : Die) (k : Nat) (keep : Bool) (bs : List Byte) : Die :=
  let d := (d.startStream k).flushBranch k
  let d := if !d.part.bit (coreAddr k + 0x44) 7 && decide (d.part.fld 0x14006C 0 12 < (d.core k).sinceSync + bs.length + 5)
    then d.sync k 0 else d
  (d.stampAt k d.now).put k keep [bs]

/-- A SYNC with a reason other than 0, behind the held outcomes (R247). -/
def Die.syncNext (d : Die) (k reason : Nat) : Die := ((d.startStream k).flushBranch k).sync k reason

/-- An INDIRECT packet in its shortest form against the last address of its kind (R246). -/
def indirectBytes (l t : Nat) : List Byte :=
  if t / 65536 = l / 65536 then [0x03] ++ leBytes 2 t
  else if t / 4294967296 = l / 4294967296 then [0x04] ++ leBytes 4 t else [0x05] ++ leBytes 8 t

/-- An INDIRECT packet (R246). -/
def Die.indirect (d : Die) (k t : Nat) : Die :=
  (d.flushBranch k).packet k d.now (fun d => [indirectBytes (d.core k).lastInd t]) fun c => { c with lastInd := t }

/-- An EXCEPTION packet with the INDIRECT64 of its handler (R246). -/
def Die.exception (d : Die) (k vec target exc : Nat) : Die :=
  (d.flushBranch k).packet k d.now
    (fun _ => [[0x06] ++ leBytes 2 vec ++ leBytes 8 exc, [0x05] ++ leBytes 8 target]) fun c => { c with lastInd := target }

/-- The field of an invalid record (R422, TAP_ERROR detail): 1 outcomes, 2 address events, 4 status; 0 valid. -/
def TapRec.bad (r : TapRec) : Nat :=
  if 4 < r.brCount then 1
  else if (match r.ind with | some i => decide (1 < i.1) | none => false) then 2
  else if 5 < r.status then 4 else 0

/-- The data range that reports an access (R245). -/
def Die.dataRange (d : Die) (k : Nat) (store : Bool) (a : Nat) : Option Nat :=
  (List.range 8).find? fun r =>
    let b := coreAddr k + 0x180 + 0x20 * r
    d.part.bit (b + 0x10) 0 && d.part.bit (b + 0x10) (if store then 2 else 1) &&
      decide (d.part.num64 b ≤ a ∧ a < d.part.num64 (b + 8))

/-- The bytes of a DATA packet of data range `r` (R246): ADDR_FULL for the first after every SYNC, and where the upper
address bytes have changed. -/
def dataBytes (last : Option Nat) (r : Nat) (noVal store : Bool) (size a v : Nat) : List Byte :=
  let full := match last with | none => true | some l => decide (l / 4294967296 ≠ a / 4294967296)
  [0x08] ++ leBytes 1 ((if store then 1 else 0) + 2 * (size % 4) + (if noVal then 8 else 0) + 16 * r +
      (if full then 128 else 0)) ++
    (if full then leBytes 8 a else leBytes 4 a) ++ (if noVal then [] else leBytes (2 ^ (size % 4)) v)

/-- A DATA packet (R245, R246). -/
def Die.dataPacket (d : Die) (k : Nat) (store : Bool) (size a v : Nat) : Die :=
  match d.dataRange k store a with
  | none => d
  | some r =>
    (d.flushBranch k).packet k d.now
      (fun d => [dataBytes (d.core k).lastData r (d.part.bit (coreAddr k + 0x190 + 0x20 * r) 3) store size a v])
      fun c => { c with lastData := some a }

/-- LOW_POWER and LP_STATE as a record's status sets them (R256). -/
def Part.lowPower (p : Part) (k : Nat) (r : TapRec) : Part :=
  match r.status with
  | 2 => (p.setBit (coreAddr k + 0x44) 7 true).setFld (coreAddr k + 0x44) 16 8 r.lp
  | 3 => p.setBit (coreAddr k + 0x44) 7 false
  | _ => p

/-- CORE_TAP_RECORD (R244, R256): the record turned into packets, in the order outcomes, address event, access, status
(log entry 19). One outside the limits is discarded with TAP_ERROR, whether or not the core traces. -/
def Die.tapRecord (d : Die) (k : Nat) (r : TapRec) : Die :=
  if r.bad ≠ 0 then
    let d := d.onPart fun p => p.raise (corePage k) 18
      { unit := k, opCode := 1, detail := leBytes 1 r.bad ++ leBytes 8 p.now }
    if d.tracing k then d.syncNext k 1 else d
  else if !d.tracing k then d.onPart fun p => p.lowPower k r
  else
    let brEn := d.part.bit (coreAddr k + 0x40) 1
    let d := if r.status = 3 then (d.syncNext k 3).onPart fun p => p.lowPower k r else d
    let d := if (d.core k).resumed && brEn && decide (0 < r.brCount) then
        (d.setCore k { d.core k with resumed := false }).syncNext k 6
      else d
    let d := if brEn then (List.range r.brCount).foldl (fun d i => d.outcome k (r.brTaken.testBit (3 - i))) d else d
    let d := match (if brEn then r.ind else none) with
      | none => d
      | some (kind, vec, target, exc) => if kind = 0 then d.indirect k target else d.exception k vec target exc
    let d := match (if d.part.bit (coreAddr k + 0x40) 2 then r.data else none) with
      | none => d
      | some (store, size, a, v) => d.dataPacket k store size a v
    if r.status = 2 then ((d.syncNext k 7).put k true [[0x0D] ++ leBytes 1 r.lp]).onPart fun p => p.lowPower k r else d

/-! ### Frames -/

/-- One bit step of the CRC-16 of R249. -/
def crc16Bit (c : Nat) : Nat := if c / 32768 % 2 = 1 then ((c * 2) % 65536) ^^^ 0x1021 else (c * 2) % 65536

/-- The CRC-16 of R249. -/
def crc16 (bs : List Byte) : Nat :=
  bs.foldl (fun c b => (List.range 8).foldl (fun c _ => crc16Bit c) (c ^^^ (b.toNat * 256))) 0xFFFF

/-- A trace frame (R249): `cs` are at most 27 stream bytes with their packet-start marks. -/
def traceFrame (core : Nat) (fill : Bool) (cs : List FifoByte) : List Byte :=
  let first := match (List.range cs.length).find? fun i => ((cs[i]?.map FifoByte.starts).getD false) with
    | some i => i | none => 0xFF
  let body := leBytes 1 (core % 64 + if fill then 64 else 0) ++ leBytes 1 cs.length ++ leBytes 1 first ++
    padTo 27 (cs.map FifoByte.byte)
  body ++ leBytes 2 (crc16 body)

/-- Whether a core has a frame ready (R250). -/
def CoreTrace.ready (c : CoreTrace) : Bool := decide (27 ≤ c.fifo.length) || (c.part && !c.fifo.isEmpty)

/-- FRAME_FORM_TIMEOUT (R250): 1 µs after its oldest unframed byte entered, a core's bytes form a frame. -/
def Die.frameTimeout (d : Die) (k : Nat) : Die :=
  let c := d.core k
  match c.fifo with
  | [] => d
  | b :: _ => (d.onPart fun p => p.reach (b.since + 1000)).setCore k { c with part := true }

/-- A stall released, with TIMESTAMP and STALL (R252). -/
def Die.stallEnd (d : Die) (k : Nat) : Die :=
  let a := coreAddr k
  if d.part.bit (a + 0x44) 8 then
    let n := d.now - (d.core k).stallSince
    let d := d.onPart fun p =>
      { (p.setBit (a + 0x44) 8 false).setNum64 (a + 0x58) (min 0xFFFFFFFFFFFFFFFF (p.num64 (a + 0x58) + n)) with
        out := p.out ++ [Out.stall k false] }
    if (d.core k).started then d.stamped k false ([0x10] ++ leBytes 4 (min 0xFFFFFFFF n)) else d
  else d

/-- Dropping ends once the FIFO has fallen to 1,024 bytes (R252): OVERFLOW, behind the outcomes held, which are lost too, then
SYNC reason 2. -/
def Die.dropEnd (d : Die) (k : Nat) : Die :=
  if d.dropping k then ((d.flushBranch k).overflow k).sync k 2 else d

/-- What a FIFO at or below 1,024 bytes brings (R252). -/
def Die.fifoLow (d : Die) (k : Nat) : Die :=
  if (d.core k).fifo.length ≤ 1024 then (d.stallEnd k).dropEnd k else d

/-- The buffer reaches FULL (R253). -/
def Die.bufFull (d : Die) : Die := d.onPart fun p => (p.setFld 0x140048 0 2 3).setBit 0x14007C 1 true

/-- A frame written to the buffer (R253). -/
def Die.bufWrite (d : Die) (f : List Byte) : Die :=
  let w := d.part.fld 0x140050 0 18
  let d := d.onMeander fun m => { m with buf := sput [] m.buf w f }
  let d := d.onPart fun p =>
    let p := (p.setFld 0x140050 0 18 (w + 1)).incWrap 0x140078 1
    if w + 1 = 262144 then p.setBit 0x140048 2 true else p
  if d.bufState = 2 then
    let d := d.onMeander fun m => { m with postLeft := m.postLeft - 1 }
    if d.meander.postLeft = 0 then d.bufFull else d
  else d

/-- PORT_MODE (R251): 0 off, 1 serial, 2 parallel. -/
def Die.portMode (d : Die) : Nat := d.part.fld 0x140040 0 2

/-- A frame on the trace port (R251): serial, bytes 8j to 8j + 7 as one block on lane j; parallel, transfer k with byte 2k on
TRC_D[7:0] and byte 2k + 1 on TRC_D[15:8], TRC_FRM high during transfer 0. A port that is off sends nothing. -/
def Die.portOut (d : Die) (f : List Byte) : Die :=
  match d.portMode with
  | 1 => d.onPart fun p => { p with out := p.out ++
      [Out.traceSerial ((List.range 4).map fun j => (f.drop (8 * j)).take 8)] }
  | 2 => d.onPart fun p => { p with out := p.out ++
      [Out.traceParallel ((List.range 16).map fun k => (leNat ((f.drop (2 * k)).take 2), k == 0))] }
  | _ => d

/-- FRAME_SEND (R250): the next core with a frame ready is served to every sink that takes frames. Whenever the port has no
frame to send, whether or not it is a sink and in every page state, it sends FILL (R251). A FULL buffer takes nothing
(R253). -/
def Die.frameSend (d : Die) : Die :=
  let port := d.sinkPort
  let buf := d.sinkBuf && decide (d.bufState ≠ 3)
  let fill := traceFrame 0 true []
  match (if port || buf then (List.range 64).find? fun i => (d.core ((d.meander.rr + i) % 64)).ready else none) with
  | none => d.portOut fill
  | some i =>
    let k := (d.meander.rr + i) % 64
    let c := d.core k
    let f := traceFrame k false (c.fifo.take 27)
    let d := d.onMeander fun m => { m with rr := (k + 1) % 64 }
    let d := d.setCore k { c with fifo := c.fifo.drop 27, part := false }
    let d := if port then (d.onPart fun p => p.incWrap 0x140074 1).portOut f else d.portOut fill
    let d := if buf then d.bufWrite f else d
    (d.onPart fun p => p.event 0x140).fifoLow k

/-- The cores that trace now. -/
def Die.tracers (d : Die) : List Nat := (List.range 64).filter d.tracing

/-- Every stream set back when the last sink stops (R250): stalls are released, the FIFOs are discarded and counted; once a
sink has returned, the streams that lost bytes send their OVERFLOW. -/
def Die.sinkCheck (d : Die) : Die :=
  if d.sinkPort || d.sinkBuf then
    (d.tracers.filter fun k => (d.core k).lost != 0).foldl (fun d k => d.startStream k) d
  else d.meander.cores.foldl (fun d e =>
    let d := d.stallEnd e.1
    let c := d.core e.1
    d.setCore e.1 { c with
      fifo := [], held := [], part := false, started := false, lost := c.lost + c.fifo.length
      lostSince := if c.lost = 0 then d.now else c.lostSince }) d

/-! ### Buffer commands and triggers -/

/-- BUF_CMD refused, a buffer operation (R265). -/
def Die.bufRefuse (d : Die) (w : Nat) : Die := d.onPart fun p => p.accessErrOp 0x140 0x140044 (BitVec.ofNat 32 w) true 3

/-- ARM (R253). -/
def Die.bufArm (d : Die) : Die :=
  if d.part.bit 0x140048 3 then d.bufRefuse 1
  else
    let d := d.onPart fun p => ((p.setFld 0x140048 0 2 1).setBit 0x140048 2 false).wr 0x140050 0
    let d := d.onMeander fun m => { m with postLeft := 0, wrappedAtTrig := false, trigAt := none }
    d.tracers.foldl (fun d k =>
      if (d.core k).started then (d.syncNext k 4).fifoLow k else d.startStream k) d

/-- DISARM (R253). -/
def Die.bufDisarm (d : Die) : Die := (d.onPart fun p => p.setFld 0x140048 0 2 0).sinkCheck

/-- post of R253. -/
def Die.postFrames (d : Die) : Nat := 262144 * d.part.fld 0x14004C 0 7 / 100

/-- The rank of a trigger among those of one instant (R254): Bore, comparators and watchpoints by core and index, the
register. -/
def triggerRank (src core id : Nat) : Nat :=
  match src with
  | 3 => 0
  | 1 => 1 + 16 * core + id
  | 2 => 1 + 16 * core + 8 + id
  | _ => 1025

/-- The trigger the buffer has taken, as its registers name it. -/
def Part.triggerTaken (p : Part) (src core id : Nat) : Part :=
  ((p.setNum 0x140060 id).setFld 0x140048 8 4 src).setFld 0x140048 12 6 core

/-- A trigger (R253, R254): TRIGGER packets in every tracing stream; one taken in WRAPPING freezes the pre-trigger portion,
and any other counts as extra. One that coincides with the trigger taken and ranks before it is taken in its place. -/
def Die.bufTrigger (d : Die) (src core id : Nat) : Die :=
  let taken := decide (d.bufState = 1)
  let d := d.tracers.foldl (fun d k =>
    let d := d.stamped k true ([0x0E] ++ leBytes 1 src ++ leBytes 4 id)
    if taken then d.sync k 5 else d) d
  if taken then
    let d := d.onPart fun p =>
      let p := ((p.wr 0x140054 (p.rd 0x140050)).setNum64 0x140058 p.now).triggerTaken src core id
      (p.setBit 0x14007C 0 true).setFld 0x140048 0 2 2
    let d := d.onMeander fun m =>
      { m with postLeft := d.postFrames, wrappedAtTrig := d.part.bit 0x140048 2, trigAt := some d.part.time }
    if d.postFrames = 0 then d.bufFull else d
  else
    let held := triggerRank (d.part.fld 0x140048 8 4) (d.part.fld 0x140048 12 6) (d.part.num 0x140060)
    let first := d.meander.trigAt = some d.part.time ∧ d.bufState ≠ 0 ∧ triggerRank src core id < held
    (if first then d.onPart fun p => p.triggerTaken src core id else d).onPart fun p => p.inc 0x140064

/-- The valid frames, oldest first (R255). -/
def Die.validFrames (d : Die) : List Nat :=
  let w := d.part.fld 0x140050 0 18
  let n := 262144
  if d.bufState = 3 then
    let t := d.part.fld 0x140054 0 18
    let pre := n - d.postFrames
    if d.meander.wrappedAtTrig || decide (pre ≤ t) then (List.range n).map fun i => (t + n - pre + i) % n
    else List.range (t + d.postFrames)
  else if d.part.bit 0x140048 2 then (List.range n).map fun i => (w + i) % n
  else List.range w

/-- A trace record of at most 64 frames (R280). -/
def Die.traceRecord (d : Die) (fs : List Nat) : Rec :=
  { kind := .trace, tag := fs.headD 0
    bytes := buildRecord d.part.gdid 0x07 (flagBits d.part.provisional d.part.disc.unsynced) d.spring.window.index
      (d.part.num64 0x140058) 0 d.partition 0
      [section_ 0x14 false fs.length 0 (leBytes 4 (fs.headD 0) ++
        (fs.map fun f => padTo 32 (sget [] d.meander.buf f)).flatten)] }

/-- A list cut into pieces of at most 64. -/
def chunk64 : Nat → List Nat → List (List Nat)
  | 0, _ => []
  | f + 1, xs => if xs.isEmpty then [] else xs.take 64 :: chunk64 f (xs.drop 64)

/-- UPLOAD (R253, R255). -/
def Die.bufUpload (d : Die) : Die :=
  if d.part.bit 0x140048 3 || d.bufState == 1 || d.bufState == 2 then d.bufRefuse 8
  else
    let rs := (chunk64 4096 d.validFrames).map d.traceRecord
    if rs.isEmpty then d.onPart fun p => p.setBit 0x14007C 2 true
    else (d.onMeander fun m => { m with upload := rs }).onPart fun p => p.setBit 0x140048 3 true

/-- TRACE_UPLOAD_SEND (R255): the next trace record is handed to Sluice if it is accepted. -/
def Die.uploadSend (d : Die) : Die :=
  match d.meander.upload with
  | [] => d
  | r :: rs => match d.offer r with
    | none => d
    | some d =>
      let d := d.onMeander fun m => { m with upload := rs }
      if rs.isEmpty then d.onPart fun p => (p.setBit 0x140048 3 false).setBit 0x14007C 2 true else d

/-! ### Halts -/

/-- DEBUG state of a core: 0 RUNNING, 1 HALT_WAIT, 2 DRAIN_WAIT, 3 HALTED, 4 RESUME_WAIT. -/
def Die.debug (d : Die) (k : Nat) : Nat := d.part.fld (coreAddr k + 0x44) 0 3
/-- DEBUG set. -/
def Die.setDebug (d : Die) (k v : Nat) : Die := d.onPart fun p => p.setFld (coreAddr k + 0x44) 0 3 v
/-- HALT_CAUSE raised to a higher rank (R259). -/
def Die.raiseCause (d : Die) (k cause : Nat) : Die :=
  d.onPart fun p => p.setFld (coreAddr k + 0x44) 3 3 (max cause (p.fld (coreAddr k + 0x44) 3 3))

/-- A halt's start: its deadline stage and the time HALT_NS counts from (R258). -/
def Die.haltBegin (d : Die) (k : Nat) : Die :=
  (d.setCore k { d.core k with haltSince := d.now }).onPart fun p => p.stageStart (corePage k) 0 k 2 p.now

/-- TIMESTAMP and HALT in the core's stream, and the drain request (R258). -/
def Die.haltStop (d : Die) (k index : Nat) : Die :=
  let d := if d.tracing k then
      d.stamped k true ([0x0F] ++ leBytes 1 (d.part.fld (coreAddr k + 0x44) 3 3) ++ leBytes 1 index)
    else d
  (d.setDebug k 2).onPart fun p => { p with out := p.out ++ [Out.drainReq k] }

/-- HALT of a core with a cause (R258). -/
def Die.halt (d : Die) (k cause : Nat) : Die :=
  match d.debug k with
  | 0 =>
    let d := (d.setDebug k 1).onPart fun p =>
      { p.setFld (coreAddr k + 0x44) 3 3 cause with out := p.out ++ [Out.haltReq k] }
    d.haltBegin k
  | 4 => (d.onPart fun p =>
      if p.bit (coreAddr k + 0x44) 6 then p else (p.setBit (coreAddr k + 0x44) 6 true).setFld (coreAddr k + 0x44) 3 3 0).raiseCause
        k cause
  | _ => d.raiseCause k cause

/-- A halt from Bore (R263): in FAULTED it raises HALT_FAIL and leaves the core running. -/
def Die.boreHalt (d : Die) (k cause : Nat) : Die :=
  if d.part.pstate (corePage k) = .faulted then
    d.onPart fun p => p.raise (corePage k) 17 { unit := k, opCode := 2, detail := leBytes 1 cause ++ [1] }
  else d.halt k cause

/-- SELF of a core: it halted on a comparator's HALT action (R258); cause 2 or 3 by the index. -/
def Die.selfHalt (d : Die) (k index : Nat) : Die :=
  let cause := if index < 8 then 2 else 3
  match d.debug k with
  | 0 => ((d.onPart fun p => p.setFld (coreAddr k + 0x44) 3 3 cause).haltBegin k).haltStop k index
  | 1 => (d.raiseCause k cause).haltStop k index
  | _ => d

/-- HALTED reported (R258). -/
def Die.halted (d : Die) (k : Nat) : Die := if d.debug k = 1 then d.haltStop k 0xFF else d

/-- HALTED_MAP bit of a core. -/
def Die.haltedMap (d : Die) (k : Nat) (b : Bool) : Die := d.onPart fun p => p.setBit (0x140084 + 4 * (k / 32)) (k % 32) b

/-- DRAINED reported: the core enters HALTED as HALTED_DRAINED (R258). -/
def Die.drained (d : Die) (k : Nat) : Die :=
  if d.debug k = 2 then
    let d := { d with part := (d.part.stageDone (corePage k) 0 k).2 }
    ((d.setDebug k 3).haltedMap k true).onPart fun p => (p.setBit 0x14007C 3 true).event (corePage k)
  else d

/-- RESUME of a HALTED core (R258). -/
def Die.resume (d : Die) (k : Nat) : Die :=
  if d.debug k = 3 then
    ((d.setDebug k 4).haltedMap k false).onPart fun p => { p with out := p.out ++ [Out.resumeReq k] }
  else d

/-- RUNNING reported after a resume (R258): SYNC reason 6 is due, HALT_NS grows, and a halt that waited is sent. -/
def Die.running (d : Die) (k : Nat) : Die :=
  if d.debug k = 4 then
    let a := coreAddr k
    let c := d.core k
    let again := d.part.bit (a + 0x44) 6
    let cause := d.part.fld (a + 0x44) 3 3
    let d := d.onPart fun p =>
      (p.setNum64 (a + 0x60) (min 0xFFFFFFFFFFFFFFFF (p.num64 (a + 0x60) + (p.now - c.haltSince)))).setBit (a + 0x44) 6 false
    let d := (d.setCore k { c with resumed := true }).setDebug k 0
    if again then d.halt k cause else d
  else d

/-- CTL.HALT written (R258, R263). -/
def Die.haltWrite (d : Die) (k : Nat) : Die :=
  if d.part.active (corePage k) then d.halt k 1
  else d.onPart fun p => p.accessErrOp (corePage k) (coreAddr k + 0x40) 0x10 true 2

/-- CTL.RESUME written (R258, R263): refused unless the core is HALTED or already resuming. -/
def Die.resumeWrite (d : Die) (k : Nat) : Die :=
  if d.part.active (corePage k) && decide (d.debug k = 3 ∨ d.debug k = 4) then d.resume k
  else d.onPart fun p => p.accessErrOp (corePage k) (coreAddr k + 0x40) 0x20 true 2

/-- CTL.SYNC_NOW written (R247, R263). -/
def Die.syncNow (d : Die) (k : Nat) : Die :=
  if !d.part.active (corePage k) then d.onPart fun p => p.accessErrOp (corePage k) (coreAddr k + 0x40) 0x40 true 1
  else if d.tracing k then d.syncNext k 1 else d

/-! ### Comparators -/

/-- The settings of a comparator or watchpoint sent to its core (R257): COMP_SYNCED falls until the core has acknowledged all
that were sent. -/
def Die.compSend (d : Die) (k index : Nat) : Die :=
  let a := coreAddr k
  (d.setCore k { d.core k with compOut := (d.core k).compOut + 1 }).onPart fun p =>
    let (x, y, c) := if index < 8
      then (p.num64 (a + 0x80 + 0x10 * index), 0, p.fld (a + 0x88 + 0x10 * index) 0 10)
      else (p.num64 (a + 0x100 + 0x20 * (index - 8)), p.num64 (a + 0x108 + 0x20 * (index - 8)),
        p.fld (a + 0x110 + 0x20 * (index - 8)) 0 10)
    { p.setBit (a + 0x44) 10 false with out := p.out ++ [Out.compWr k index x y c] }

/-- The comparator index an offset of a MEANDER_CORE page belongs to, if any (R264). -/
def compIndex (off : Nat) : Option Nat :=
  if 0x80 ≤ off ∧ off < 0x100 ∧ off % 0x10 ≤ 0x8 then some ((off - 0x80) / 0x10)
  else if 0x100 ≤ off ∧ off < 0x180 ∧ off % 0x20 ≤ 0x10 then some (8 + (off - 0x100) / 0x20)
  else none

/-- COMP_ACK (R257): one exchange of settings is in force at the core, and with the last of them COMP_SYNCED is set. -/
def Die.compAck (d : Die) (k : Nat) : Die :=
  match (d.core k).compOut with
  | 0 => d
  | n + 1 =>
    let d := d.setCore k { d.core k with compOut := n }
    if n = 0 ∧ d.part.active (corePage k) then d.onPart fun p => p.setBit (coreAddr k + 0x44) 10 true else d

/-- COMP_MATCH (R257): MATCH_PEND, and each action the core took: bit 0 HALT, 1 TRIGGER, 2 CROSS. Outside ACTIVE the core
holds its comparators disabled (R263). -/
def Die.compMatch (d : Die) (k index action : Nat) : Die :=
  if !d.part.active (corePage k) || decide (11 < index) then d
  else
    let d := d.onPart fun p => p.setBit (coreAddr k + 0x68) index true
    let d := if action.testBit 1 then
        d.bufTrigger (if index < 8 then 1 else 2) k (if index < 8 then index else index - 8) else d
    let d := if action.testBit 0 then d.selfHalt k index else d
    if action.testBit 2 && d.meander.cross.isNone then
      d.onMeander fun m => { m with cross := some (k, index) }
    else d

end Sys2Proof.Machine
end

