-- ==== Sys2Proof/Machine/PowerStep.lean ====
section
/-! DEFINITION. The die's power-step logic (R351, R352, R358). -/

namespace Sys2Proof.Machine

/-- The die with its GLOBAL state changed. -/
def Die.onGlob (d : Die) (f : GlobalState → GlobalState) : Die := { d with glob := f d.glob }

/-- A POWER_STEP without CANCEL executes (R351): it replaces any pending step. -/
def Die.pstepExecute (d : Die) (op step : Nat) : Die :=
  let last := d.part.num 0x40054
  let slip := decide (step ≠ 0 ∧ last ≠ 0xFFFFFFFF ∧ step ≤ last + 1)
  (d.onGlob fun g => { g with pstepAt := d.now, pstepSlip := slip }).onPart fun p =>
    (((p.setFld 0x100 4 3 op).setBit 0x100 7 true).setBit 0x100 8 false).setNum 0x104 step

/-- A POWER_STEP with CANCEL meets the pending step (R230, R351). -/
def Die.pstepCancel (d : Die) (step : Nat) : Die :=
  if d.part.bit 0x100 7 && d.part.num 0x104 == step then d.onPart fun p => (p.setBit 0x100 7 false).inc 0x11C else d

/-- JOB_START and JOB_ABORT clear a pending or ungranted step (R352). -/
def Die.pstepClear (d : Die) : Die :=
  if d.part.bit 0x100 7 || d.part.bit 0x100 8 then
    d.onPart fun p => ((p.setBit 0x100 7 false).setBit 0x100 8 false).inc 0x11C
  else d

/-- The request presented to the power controller (R351, R352). -/
def Die.pstepPresent (d : Die) : Die :=
  (d.onGlob fun g => { g with reqAt := d.now }).onPart fun p =>
    { p with out := p.out ++ [Out.powerReq (p.fld 0x100 4 3) (p.num 0x104)] }

/-- A marker accepted at `at_` with number `m` (R351): one at or before the execution only decides the slip; a later
one applies the step once its number allows. -/
def Die.pstepMarker (d : Die) (m at_ : Nat) : Die :=
  if !d.part.bit 0x100 7 then d
  else
    let s := d.part.num 0x104
    if at_ ≤ d.glob.pstepAt then
      d.onGlob fun g => { g with pstepSlip := g.pstepSlip || decide (s ≠ 0 ∧ s ≤ m + 1) }
    else if s ≠ 0 ∧ m + 1 < s ∧ !d.glob.pstepSlip then d
    else
      let d := if d.glob.pstepSlip then
          d.onPart fun p => (p.inc 0x118).raise 0 16 { detail := leBytes 4 s ++ leBytes 4 m }
        else d
      (d.onPart fun p =>
        ((((p.setBit 0x100 7 false).setBit 0x100 8 true).setNum 0x108 m).setNum64 0x10C at_).inc 0x114).pstepPresent

/-- The power controller's grant (R352). -/
def Die.pstepGrant (d : Die) (op : Nat) : Die :=
  d.onPart fun p => ((p.setFld 0x100 0 3 op).setBit 0x100 3 true).setBit 0x100 8 false

/-- No grant within 1 ms (R352): PSTEP_NO_GRANT, and the request is presented again. -/
def Die.pstepNoGrant (d : Die) : Die :=
  if d.part.bit 0x100 8 then
    let d := d.onPart fun p => p.reach (d.glob.reqAt + 1000000)
    (d.onPart fun p => p.raise 0 17
      { detail := leBytes 1 (p.fld 0x100 4 3) ++ leBytes 4 (p.num 0x104) }).pstepPresent
  else d

end Sys2Proof.Machine
end

