-- ==== Sys2Proof/Machine/Cut.lean ====
section
/-! DEFINITION. Cuts and snapshots (R234–R237). -/

namespace Sys2Proof.Machine

/-- The pages a cut copies, in ascending order (R234). -/
def cutPages : List Nat :=
  [0x000, 0x001, 0x002, 0x003, 0x004, 0x005, 0x006, 0x007, 0x008, 0x009, 0x010, 0x018] ++
    (List.range 10).map (0x020 + ·) ++ [0x030, 0x031, 0x040, 0x041] ++ (List.range 65).map (0x100 + ·)

/-- A counter's entry in a cut (R236). -/
def Die.cutCounter (d : Die) (i : Nat) : List Byte :=
  let c := d.counter i
  leBytes 8 (c.sum + 2 ^ 48 * b2n c.sat + 2 ^ 49 * b2n (!d.countCtx.counts (i / 16)) + 2 ^ 50 * b2n c.invalid)

/-- A health point's value at a cut (R234): the input at the cut instant, or the last closed window's monitor value. -/
def Die.cutPoint (d : Die) (pt : Nat) : W16 :=
  if pt < 448 then
    let h := sget {} d.part.hpIn pt
    if h.valid then h.val else hpMissing pt
  else d.hpValue pt

/-- One page of a cut: its number, its copy offset (free within the smear bound of j × 80 ns, log entry 5) and its
4,096-byte image. -/
def Die.cutPage (d : Die) (j page : Nat) : List Byte :=
  leBytes 2 page ++ [0, 0] ++ leBytes 4 ((Config.free32 (d.part.fresh + j)).toNat % (80 * j + 1)) ++
    ((List.range 1024).map fun w => leBytes 4 (d.view (page * 0x1000 + 4 * w)).toNat).flatten

/-- One snapshot record (R236): the CUT section, and the part's section. -/
def Die.cutRecord (d : Die) (e : BoreEvent) (flags part : Nat) (sect : List Byte) : Rec :=
  { kind := .snapshot, tag := part
    bytes := buildRecord d.part.gdid 0x06 (flagBits d.part.provisional d.part.disc.unsynced) d.spring.window.index
      d.now (d.now - d.spring.window.start) d.partition 0
      [section_ 0x12 false 1 0 (leBytes 4 e.arg0 ++ leBytes 4 d.job ++ leBytes 1 part ++ leBytes 1 21 ++
        leBytes 2 flags ++ leBytes 4 e.source ++ leBytes 8 e.exec), sect] }

/-- The 21 parts of a cut (R236). -/
def Die.cutParts (d : Die) (e : BoreEvent) (flags : Nat) : List Rec :=
  ((List.range 8).map fun k => d.cutRecord e flags k
    (section_ 0x11 false 4096 (4096 * k) ((List.range 4096).map fun i => d.cutCounter (4096 * k + i)).flatten)) ++
  [d.cutRecord e flags 8 (section_ 0x02 false 512 0 ((List.range 512).map fun i => leBytes 2 (d.cutPoint i).toNat).flatten)] ++
  ((List.range 12).map fun k =>
    let ps := (cutPages.drop (8 * k)).take 8
    d.cutRecord e flags (9 + k) (section_ 0x13 false ps.length (ps.getD 0 0)
      ((List.range ps.length).map fun i => d.cutPage (8 * k + i + 1) (ps.getD i 0)).flatten))

/-- A cut taken by a STOP or SNAPSHOT (R234–R237), or SNAP_OVERRUN while one is held. -/
def Die.takeCut (d : Die) (e : BoreEvent) (stop late : Bool) : Die :=
  match d.bore.cut with
  | some c => d.onPart fun p => (p.inc 0x3090).raise 3 19
      { detail := leBytes 4 e.arg0 ++ leBytes 4 c.id ++ leBytes 1 (21 - c.parts.length) }
  | none =>
    let flags := b2n stop + 2 * b2n (decide (e.exec = 0)) + 4 * b2n late + 8 * b2n d.part.disc.unsynced
    let d := (d.onLane fun p s => cutLatch p s none e.arg0).onPart fun p => (p.setNum 0x308C e.arg0).setBit 0x3044 5 true
    let d := { d with bore := { d.bore with cut := some ⟨e.arg0, d.cutParts e flags⟩ } }
    d.onPart fun p => { p with fresh := p.fresh + 92 }

/-- The next part of the cut handed to Sluice (R237). -/
def Die.partSend (d : Die) : Die :=
  match d.bore.cut with
  | none => d
  | some c => match c.parts with
    | [] => d
    | r :: rs => match d.offer r with
      | none => d
      | some d =>
        if rs.isEmpty then (d.onBore fun b => { b with cut := none }).onPart fun p => p.setBit 0x3044 5 false
        else d.onBore fun b => { b with cut := some { c with parts := rs } }

end Sys2Proof.Machine
end

