-- ==== Sys2Proof/Machine/BoreEvents.lean ====
section
/-! DEFINITION. Bore events on a die (chapter 10): acceptance (R224, R229), the trigger pool (R71–R76), effects (R230),
the vote (R219–R221), launches (R238) and the cross-halt launch (R260). -/

namespace Sys2Proof.Machine

/-- The die with its Headwater state changed. -/
def Die.onHw (d : Die) (f : HwState → HwState) : Die := { d with hw := f d.hw }

/-! ### Acceptance -/

/-- Whether a body's TYPE and fields hold stated values (R224); a BARRIER_RELEASE may carry the EXEC_TIME an aggregator
stamped (R226; log entry 22). -/
def BoreEvent.fieldsOk (e : BoreEvent) : Bool :=
  decide (e.rsv = 0 ∧ e.scope % 4 ≠ 3 ∧ e.scope < 64) &&
  (match e.typ with
    | 1 => e.qual == 0 && e.dest == 0xFFFFFFFF
    | 2 => e.qual == 0 && e.arg1 == 0 && e.dest == 0xFFFFFFFF
    | 3 => decide (e.qual < 2 ∧ e.arg0 < 256 ∧ 0 < e.arg1 ∧ e.arg1 < 65536 ∧ e.dest ≠ 0xFFFFFFFF ∧ e.exec = 0)
    | 4 => decide (e.qual < 2 ∧ e.arg0 < 256 ∧ e.dest = 0xFFFFFFFF) && (e.exec == 0 || e.scope.testBit 3)
    | 5 => decide (e.qual = 0 ∧ e.dest = 0xFFFFFFFF ∧ e.exec ≠ 0)
    | 6 => decide (e.qual < 16 ∧ e.dest = 0xFFFFFFFF ∧ e.exec ≠ 0)
    | 7 => decide (e.qual = 0 ∧ e.arg1 = 0 ∧ e.dest = 0xFFFFFFFF ∧ e.exec ≠ 0)
    | 8 => decide (e.qual = 0 ∧ e.arg1 = 0 ∧ e.dest = 0xFFFFFFFF)
    | 9 => decide (e.qual < 2 ∧ e.arg1 = 0 ∧ e.dest = 0xFFFFFFFF)
    | 10 => decide (e.arg1 = 0 ∧ e.dest ≠ 0xFFFFFFFF ∧ e.exec = 0) &&
        (match e.qual with
          | 1 => e.arg0 == 0
          | 2 => decide (e.arg0 < 65536)
          | 3 => decide (e.arg0 < 67108864 ∧ (e.arg0 / 65536 < 640 ∨ e.arg0 / 65536 = 0x3FF))
          | _ => false)
    | 15 => e.exec == 0
    | _ => false)

/-- Whether the origin a body names may send its TYPE (R224): AGG_SOURCE set for the aggregator. A die executes no
EVENT_ACK. -/
def BoreEvent.originOk (e : BoreEvent) : Bool :=
  let agg := e.scope.testBit 4
  match e.typ with
  | 3 => !agg | 4 => !agg | 5 => !agg
  | 6 => agg | 7 => agg | 10 => agg
  | 15 => false
  | _ => true

/-- The cause that refuses an event at a die (R229, R240), 0 for none: 1 type or field, 2 origin, 3 partition, 4 job. The
die's own tray aggregator, whose FENCE any partition takes, is the peer that its link has trained with (log entry 23). -/
def Die.refuseCause (d : Die) (e : BoreEvent) : Nat :=
  let any (j : Nat) : Bool := j == d.job || j == 0xFFFFFFFF
  if !e.fieldsOk || (e.dest != 0xFFFFFFFF && e.dest != d.part.gdid) then 1
  else if !e.originOk then 2
  else if e.partition ≠ d.partition ∧ !(e.typ == 10 && e.scope.testBit 4 && e.source == d.part.num 0x31048) then 3
  else match e.typ with
  | 1 => if any e.arg1 then 0 else 4
  | 8 => if any e.arg0 then 0 else 4
  | 5 => if e.arg1 = d.job then 0 else 4
  | 6 => if e.arg1 = d.job then 0 else 4
  | _ => 0

/-- A BORE_NOTE (R272): for every event executed or refused but barrier events and acknowledgements. -/
def Die.boreNote (d : Die) (e : BoreEvent) (status : Nat) (late : Bool) : Die :=
  if e.typ = 3 ∨ e.typ = 4 ∨ e.typ = 15 then d
  else
    let e := if late && !e.scope.testBit 2 then { e with scope := e.scope + 4 } else e
    let (p, s) := putS0 d.part d.port none (noteCell e d.now (status + 128 * b2n d.simplex) d.now)
    { d with part := p, port := s }

/-- An EVENT_ACK up the pairs (R229), addressed to the aggregator by the peer identity of the link (log entry 23). -/
def Die.boreAck (d : Die) (e : BoreEvent) (status : Nat) : Die :=
  d.boreLaunch 15 (status + 128 * b2n d.simplex) 0 (d.part.num 0x31048) 0 (e.seq % 65536 + 65536 * e.typ) e.source

/-! ### The trigger pool -/

/-- The order of events due at one instant (R72). -/
def trigRank (typ : Nat) : Nat :=
  match typ with
  | 8 => 0 | 1 => 1 | 10 => 2 | 5 => 3 | 2 => 4 | 6 => 5 | 7 => 6 | _ => 7

/-- Whether a pooled event comes before another (R71, R72). -/
def PoolEntry.before (a b : PoolEntry) : Bool :=
  decide (a.ev.exec < b.ev.exec) || (a.ev.exec == b.ev.exec &&
    (decide (trigRank a.ev.typ < trigRank b.ev.typ) || (trigRank a.ev.typ == trigRank b.ev.typ && decide (a.order < b.order))))

/-- The pooled event that is due first. -/
def firstDue : List PoolEntry → Option PoolEntry
  | [] => none
  | e :: es => match firstDue es with
    | none => some e
    | some f => if e.before f then some e else some f

/-- Pooled events removed; `counted` ones count as refused (R230). -/
def Die.purge (d : Die) (f : BoreEvent → Bool) (counted : Bool) : Nat × Die :=
  let n := (d.hw.pool.filter fun e => f e.ev).length
  let d := d.onHw fun h => { h with pool := h.pool.filter fun e => !f e.ev }
  (n, if counted then d.onPart fun p => p.incBy 0x10CC n else d)

/-- TRIG_LATE (R73, R76). -/
def Die.trigLate (d : Die) (e : BoreEvent) : Die :=
  d.onPart fun p => (p.inc 0x10C8).raise 1 22
    { detail := leBytes 1 e.typ ++ leBytes 8 e.exec ++ leBytes 8 p.now }

/-! ### Effects -/

/-- Halt with drain of every core (R230, R258). -/
def Die.haltAll (d : Die) (cause : Nat) : Die := (List.range 64).foldl (fun d k => d.boreHalt k cause) d

/-- The effects a JOB_START and a JOB_ABORT share (R214, R175, R352). -/
def Die.jobReset (d : Die) : Die := ((d.oxJob).discardTaps).pstepClear

/-- JOB_START (R230): the job runs, contexts reset, cores halted by STOP or JOB_ABORT resume (R259), and the next marker
is the job's first (R106). -/
def Die.jobStart (d : Die) (job : Nat) : Die :=
  let d := d.onPart fun p => (p.setNum 0x304C job).setFld 0x3050 0 2 1
  let d := d.jobReset.ctxJobStart.onSpring fun s => { s with prevMarker := none }
  if d.part.bit 0x140040 5 then
    (List.range 64).foldl (fun d k =>
      if d.debug k = 3 ∧ 5 ≤ d.part.fld (coreAddr k + 0x44) 3 3 then
        if d.part.pstate (corePage k) = .faulted then
          d.onPart fun p => p.raise (corePage k) 17
            { unit := k, opCode := 2, detail := leBytes 1 (p.fld (coreAddr k + 0x44) 3 3) ++ [1] }
        else d.resume k
      else d) d
  else d

/-- JOB_ABORT (R230); ARG0 0xFFFF_FFFF aborts whatever job a pooled event carries (log entry 24). -/
def Die.jobAbort (d : Die) (job : Nat) : Die :=
  let d := d.onPart fun p => p.setFld 0x3050 0 2 3
  let d := (d.jobReset.haltAll 6).ctxJobAbort
  (d.purge (fun e => (e.typ == 7 && (job == 0xFFFFFFFF || e.arg0 == job)) ||
    ((e.typ == 6 || e.typ == 5) && (job == 0xFFFFFFFF || e.arg1 == job))) true).2

/-- A FENCE that sets the partition (R230). -/
def Die.fenceTo (d : Die) (part : Nat) : Die :=
  let old := d.partition
  (d.onPart fun p => p.setFld 0x3048 0 16 part).purge (fun e => e.partition == old) false |>.2

/-- POWER_STEP (R230, R351). -/
def Die.powerStep (d : Die) (e : BoreEvent) : Die :=
  if e.qual.testBit 3 then
    let (n, d) := d.purge (fun x => x.typ == 6 && !x.qual.testBit 3 && x.arg0 == e.arg0 && x.arg1 == e.arg1) true
    (d.onPart fun p => p.incBy 0x11C n).pstepCancel e.arg0
  else d.pstepExecute (e.qual % 8) e.arg0

/-- TRACE_TRIGGER (R230, R254, R260). -/
def Die.traceTrigger (d : Die) (e : BoreEvent) : Die :=
  let d := if d.part.bit 0x140040 4 then d.bufTrigger 3 0 e.arg0 else d
  if e.qual.testBit 0 then
    (List.range 64).foldl (fun d k =>
      if d.part.bit (coreAddr k + 0x40) 7 && (d.part.fld (coreAddr k + 0x40) 8 8 &&& (e.arg0 % 256)) != 0 then
        d.boreHalt k 4
      else d) d
  else d

/-- The effect of an event (R230). -/
def Die.effect (d : Die) (e : BoreEvent) (late : Bool) : Die :=
  match e.typ with
  | 1 =>
    let d := (d.takeCut e true late).haltAll 5
    (d.onOx fun o => { o with stopHold := true }).onPart fun p => p.setFld 0x3050 0 2 2
  | 2 => d.takeCut e false late
  | 3 => d.ctxArrive (e.arg0 % 256) (e.qual % 2) (e.arg1 % 65536) ⟨2, e.source⟩
  | 4 => d.ctxRelease (e.arg0 % 256) (e.qual % 2) e.arg1 e.source
  | 5 => d.onPart fun p =>
      { (p.setNum 0x3084 e.arg0).inc 0x3088 with out := p.out ++ [Out.retract e.arg0 e.arg1] }
  | 6 => d.powerStep e
  | 7 => d.jobStart e.arg0
  | 8 => d.jobAbort e.arg0
  | 9 => d.traceTrigger e
  | 10 =>
    if e.qual = 1 then d.fenceTo 0xFFFF
    else if e.qual = 2 then d.fenceTo (e.arg0 % 65536)
    else d.dispute (e.arg0 % 65536) (e.arg0 / 65536 % 1024) 1
  | _ => d

/-- An event executes (R230): its effect, EVT_PEND, EVENT_COUNT and its BORE_NOTE. -/
def Die.execEvent (d : Die) (e : BoreEvent) (late : Bool) (status : Nat) : Die :=
  let d := if late then d.trigLate e else d
  let d := d.onPart fun p => (p.setBit 0x309C e.typ true).event 3
  (d.effect e late).boreNote e status late

/-- TRIGGER_FIRE (R71, R72): Headwater time reaches the first pooled event's execution time. -/
def Die.triggerFire (d : Die) : Die :=
  match firstDue d.hw.pool with
  | none => d
  | some e =>
    let d := d.onPart fun p => p.reach e.ev.exec
    (d.onHw fun h => { h with pool := h.pool.erase e }).execEvent e.ev false 0

/-- Whether an event's execution time lies in the past of a time, to the fraction of a ns (R73, R76). -/
def BoreEvent.passed (e : BoreEvent) (t : Time) : Bool := decide (e.exec * 4294967296 < t.toNat)

/-- After a step, every pooled event whose time now lies in the past executes at once, marked LATE (R76). -/
def Die.poolFlush : Nat → Die → Die
  | 0, d => d
  | f + 1, d =>
    match firstDue d.hw.pool with
    | none => d
    | some e =>
      if e.ev.passed d.part.time then
        Die.poolFlush f ((d.onHw fun h => { h with pool := h.pool.erase e }).execEvent e.ev true 5)
      else d

/-- A timed or immediate event accepted by a die (R71–R75): its acknowledgement status, and whether it is acknowledged
before it executes. With all entries occupied an event that is due at this very instant executes on arrival, and one that
lies in the future is refused for the full pool before its horizon is looked at (log entry 182). -/
def Die.takeEvent (d : Die) (e : BoreEvent) (ack : Bool) : Die :=
  let answer (d : Die) (st : Nat) : Die := if ack && decide (e.exec ≠ 0) then d.boreAck e st else d
  if e.exec = 0 then d.execEvent e false 0
  else if e.passed d.part.time && d.part.disc.stepped then (answer d 5).execEvent e true 5
  else if !d.part.disc.stepped then (answer d 5).execEvent e false 5
  else
    let refuse (bit st : Nat) : Die :=
      (answer (d.onPart fun p => (p.inc 0x10CC).raise 1 bit { detail := leBytes 1 e.typ ++ leBytes 8 e.exec }) st).boreNote
        e st false
    if 32 ≤ d.hw.pool.length then
      if e.exec * 4294967296 = d.part.time.toNat then (answer d 0).execEvent e false 0 else refuse 23 1
    else if d.part.time.toNat + d.part.num 0x10D0 * 1000000 * 4294967296 < e.exec * 4294967296 then refuse 24 2
    else
      let d := d.onHw fun h => { h with pool := h.pool ++ [⟨e, h.arrivals⟩], arrivals := h.arrivals + 1 }
      answer (d.onPart fun p => p.setFld 0x10C4 8 6 (max (p.fld 0x10C4 8 6) d.hw.pool.length)) 0

/-- An event reaches a die (R229), from its pairs or its own broadcast: refused, or taken. -/
def Die.boreAccept (d : Die) (e : BoreEvent) (pairs : Bool) : Die :=
  let d := d.onPart fun p => ((p.stageStart 3 0 0 e.typ p.now).stageDone 3 0 0).2
  match d.refuseCause e with
  | 0 => d.takeEvent e pairs
  | c =>
    let st := if c = 3 then 3 else 4
    let d := d.onPart fun p => (p.inc 0x3080).raise 3 18
      { detail := leBytes 1 e.typ ++ leBytes 1 c ++ leBytes 2 e.seq ++ leBytes 4 e.source ++ leBytes 2 e.partition }
    let d := if pairs && decide (e.exec ≠ 0) then d.boreAck e st else d
    d.boreNote e st false

/-! ### The vote -/

/-- Whether a copy has come, well or badly, in a vote. -/
def Vote.has (v : Vote) (c : Nat) : Bool := v.copies.any (fun x => x.1 == c) || v.bad.contains c

/-- A vote that has acted is closed (R220, R221): each copy up agreed, or disagreed, differed or was absent; an armed
injection corrupts one agreeing copy (R47). A copy counted as missing is remembered, so that it starts no vote when it
comes after all (log entry 173). -/
def Die.voteClose (d : Die) (v : Vote) (e : BoreEvent) : Die :=
  let (inj, p) := d.part.takeInject 3 7
  let absent := (d.upCopies.filter fun c => !v.has c).map fun c => (c, e)
  let d := { d with part := p, bore := { d.bore with missing := d.bore.missing ++ absent } }
  let agrees (c : Nat) : Bool := v.copies.any fun x => x.1 == c && x.2 == e
  let hit := if inj then ((d.upCopies.filter agrees).getLast?) else none
  d.upCopies.foldl (fun d c =>
    if hit = some c then d.copyDisagrees 3 0 c e.head true
    else if agrees c then d.onBore fun b => { b with runs := sput 0 b.runs c 0 }
    else d.copyDisagrees 3 0 c e.head false) d

/-- NO_MAJORITY (R220, R240). -/
def Die.noMajority (d : Die) (v : Vote) : Die :=
  let mask := (v.copies.map fun x => 2 ^ x.1).sum
  match v.copies with
  | [] => d
  | (_, e) :: _ => d.noMajorityOf 1 mask e

/-- The body the copies up agree on (R220, R221): two copies, or one in SIMPLEX. -/
def Vote.majority (v : Vote) (ups : List Nat) : Option BoreEvent :=
  let bs := (v.copies.filter fun x => ups.contains x.1).map (·.2)
  bs.find? fun b => decide ((if ups.length ≤ 1 then 1 else 2) ≤ bs.count b)

/-- A vote judged after a copy has come: it acts, closes, fails, or waits on. -/
def Die.voteJudge (d : Die) (v : Vote) : Die :=
  let ups := d.upCopies
  let done := ups.all v.has
  match v.acted with
  | some e => if done then d.voteClose v e else d.onBore fun b => { b with votes := b.votes ++ [v] }
  | none =>
    match v.majority ups with
    | some e =>
      let d := if done then d.voteClose v e
        else d.onBore fun b => { b with votes := b.votes ++ [{ v with acted := some e, second := d.now }] }
      d.boreAccept e true
    | none =>
      if ups.length = 2 ∧ done then d.noMajority v
      else d.onBore fun b => { b with votes := b.votes ++ [v] }

/-- The votes in progress judged again when a copy has been marked down since `ups` (R221): the copies left may decide. -/
def Die.voteAgain (d : Die) (ups : List Nat) : Die :=
  if d.upCopies = ups then d
  else d.bore.votes.foldl (fun d v => d.voteJudge v) (d.onBore fun b => { b with votes := [] })

/-- LINK_SEQ of a frame taken in (R222): a gap counts as a disagreement of the copy. -/
def Die.frameSeq (d : Die) (c seq : Nat) : Die :=
  let want := sget none d.bore.rxSeq c
  let d := d.onBore fun b => { b with rxSeq := sput none b.rxSeq c (some ((seq + 1) % 65536)) }
  match want with
  | none => d
  | some w => if w = seq ∨ !d.part.bit 0x3044 c then d else d.copyDisagrees 3 0 c 0 false

/-- A pair frame received on the pair of copy `c` (R220, R222): a frame whose START or CRC fails counts as an absent copy, and so
does one whose COPY field names another copy, a disagreement of that lane's copy (R428). A copy joins the vote whose
body it repeats, else the oldest vote that lacks it (log entry 26); one that a closed vote counted as missing is spent
(log entry 173). -/
def Die.boreCopy (d : Die) (c : Nat) (f : PairFrame) : Die :=
  let (field, seq, crc, e) := (f.field, f.seq, f.ok, f.body)
  let d := if crc then d.frameSeq c seq else d
  let crcOk := crc && field == c
  let d := if crc && field != c then (if d.part.bit 0x3044 c then d.copyDisagrees 3 0 c 0 false else d) else d
  if !d.part.bit 0x3044 c then d
  else if crcOk && d.bore.missing.contains (c, e) then
    d.onBore fun b => { b with missing := b.missing.erase (c, e) }
  else
    let lacking := d.bore.votes.filter fun v => !v.has c
    match (lacking.find? fun v => v.copies.any fun x => x.2 == e), lacking.head? with
    | some v, _ => (d.onBore fun b => { b with votes := b.votes.erase v }).voteJudge
        (if crcOk then { v with copies := v.copies ++ [(c, e)] } else { v with bad := v.bad ++ [c] })
    | none, some v => (d.onBore fun b => { b with votes := b.votes.erase v }).voteJudge
        (if crcOk then { v with copies := v.copies ++ [(c, e)] } else { v with bad := v.bad ++ [c] })
    | none, none => if crcOk then d.voteJudge { copies := [(c, e)], first := d.now } else d

/-- A pair frame received on the pair of copy `c`, and what follows from a copy marked down. -/
def Die.boreFrame (d : Die) (c : Nat) (f : PairFrame) : Die := (d.boreCopy c f).voteAgain d.upCopies

/-- When a vote's window ends (R220). -/
def Vote.due (v : Vote) (w : Nat) : Nat := (if v.acted.isSome then v.second else v.first) + w

/-- The vote whose window ends first. -/
def firstVote (w : Nat) : List Vote → Option Vote
  | [] => none
  | v :: vs => match firstVote w vs with
    | none => some v
    | some u => if v.due w ≤ u.due w then some v else some u

/-- VOTE_WINDOW_EXPIRED (R220): the vote due first ends without its third copy, or without a majority. -/
def Die.voteExpired (d : Die) : Die :=
  match firstVote (d.part.fld 0x3098 0 16) d.bore.votes with
  | none => d
  | some v =>
    let d := d.onPart fun p => p.reach (v.due (p.fld 0x3098 0 16))
    let d := d.onBore fun b => { b with votes := b.votes.erase v }
    match v.acted with
    | some e => (d.voteClose v e).voteAgain d.upCopies
    | none => d.noMajority v

/-- COPY_RESET (R221). -/
def Die.copyReset (d : Die) : Die :=
  (d.onBore fun b => { b with runs := [], missing := [], upset := 0 }).onPart fun p => (p.setFld 0x3044 0 3 7).setBit 0x3044 3 false

/-! ### Launches -/

/-- An event launched by its scope (R225): DIE on the die's own broadcast, whose copies its receivers vote, the others up
the pairs. -/
def Die.launchScope (d : Die) (typ qual scope dest exec arg0 arg1 : Nat) : Die :=
  let (e, d) := d.makeEvent typ qual scope dest exec arg0 arg1
  if scope = 0 then
    let (ok, d) := d.copiesVote 3 0 e
    if ok then d.boreAccept e false else d
  else d.boreSend e

/-- BORE_CTL.LAUNCH (R238): the event of the LAUNCH registers, or LAUNCH_RESULT 2, ACCESS_ERR and EVENT_REFUSED cause 5. -/
def Die.launch (d : Die) (w : W32) : Die :=
  let p := d.part
  let typ := p.fld 0x3054 0 8
  let scope := p.fld 0x3054 16 2
  if !(typ == 1 || typ == 2 || typ == 8 || typ == 9) || scope == 3 || d.partition == 0xFFFF || p.bit 0x3044 4 ||
      !p.active 3 then
    d.onPart fun p => ((p.setFld 0x3044 8 2 2).accessErr 3 0x3040 w true).raise 3 18
      { detail := leBytes 1 typ ++ [5] ++ leBytes 2 (p.fld 0x306C 0 16) ++ leBytes 4 p.gdid ++ leBytes 2 d.partition }
  else
    (d.launchScope typ (p.fld 0x3054 8 8) scope (p.num 0x3058) (p.num64 0x305C) (p.num 0x3064) (p.num 0x3068)).onPart
      fun p => p.setFld 0x3044 8 2 1

/-- A waiting cross-halt launch goes out (R260), or LAUNCH_REFUSED. -/
def Die.crossLaunch (d : Die) : Die :=
  match d.meander.cross with
  | none => d
  | some (k, i) =>
    let d := d.onMeander fun m => { m with cross := none }
    let scope := d.part.fld 0x140070 0 2
    let cause := if scope = 3 then 2 else if d.partition = 0xFFFF then 3 else if !d.part.active 3 then 4 else 0
    if cause ≠ 0 then
      d.onPart fun p => p.raise 0x140 16 { unit := k, opCode := 2, detail := leBytes 1 k ++ leBytes 1 i ++ leBytes 1 cause }
    else
      d.launchScope 9 1 scope 0xFFFFFFFF 0 (d.part.fld 0x140070 8 8 + 256 * k + 65536 * i) 0

end Sys2Proof.Machine
end

