-- ==== Sys2Proof/Machine/SelfTime.lean ====
section
/-! DEFINITION. Stage-period monitors, the baseline table and drift alerts (R94–R97), and adapter timeouts (R85). -/

namespace Sys2Proof.Machine

/-- The die with its monitor state changed. -/
def Die.onMon (d : Die) (f : MonState → MonState) : Die := { d with mon := f d.mon }

/-- tbin of R95: 16 °C per bin. -/
def monTbin (t : W16) : Nat := min 7 (t.toInt / 256).toNat
/-- vbin of R95: 62.5 mV per bin from 550 mV. -/
def monVbin (v : W16) : Nat := min 3 ((v.toNat - 4400) / 500)

/-- The period of a monitor (R95), and whether its replica ring gave it. -/
def MonSample.period (s : MonSample) : Nat × Bool :=
  if 27 ≤ s.m ∨ s.live < 256 then (s.replica % 65536, true) else (min 0xFFFF (s.selfNs / s.live), false)

/-- tbin in [6:4] and vbin in [1:0], from health points 0 and 128, the nearest to every stage (R418). DESIGN CHOICE (log
entry 183): their latest inputs, not their window values. -/
def Part.monBins (p : Part) : Nat := 16 * monTbin (p.tempAt 0) + monVbin (p.voltAt 128)
/-- The condition cell of a monitor (R95). -/
def monCell (m bins : Nat) : Nat := m * 32 + bins / 16 * 4 + bins % 16

/-- Drift against a baseline (R95), truncated toward zero (log entry 27), as 16 bits. -/
def driftOf (period base : Nat) : Nat :=
  twos (clampAbs (Int.tdiv (((period : Int) - base) * 4096) base) 0x7FFF) 16

/-- One window more in a learning cell (R96): after 256 windows it takes their mean. -/
def MonState.learn (m : MonState) (cell period : Nat) : MonState :=
  let a := sget (0, 0) m.acc cell
  let s := a.2 + period
  if a.1 < 255 then
    { m with
      base := Mem.wrLE m.base (4 * cell) 4 (Mem.rdLE m.base (4 * cell) 4 % 65536 + 65536 * (a.1 + 1))
      acc := sput (0, 0) m.acc cell (a.1 + 1, s) }
  else
    { m with
      base := Mem.wrLE m.base (4 * cell) 4 (s / 256 % 65536 + 255 * 65536 + 16777216), acc := sput (0, 0) m.acc cell (0, 0) }

/-- Baseline words written by the driver (R96): the reserved bits stay zero, and a cell that changes starts its accumulation
afresh (log entry 68). -/
def MonState.load (m : MonState) (a : Nat) (bs : List Byte) : MonState :=
  (List.range (bs.length / 4)).foldl (fun m i =>
    let c := a / 4 + i
    let w := leNat ((bs.drop (4 * i)).take 4) % 33554432
    if Mem.rdLE m.base (4 * c) 4 = w then m
    else { m with base := Mem.wrLE m.base (4 * c) 4 w, acc := sput (0, 0) m.acc c (0, 0) }) m

/-- DRIFT_ALERT of a monitor after a window (R97). A drift of 0x8000 counts as at or below the limit. -/
def Die.driftAlert (d : Die) (m drift period base tv : Nat) : Die :=
  let n := d.part.fld 0x2048 0 8
  if drift ≠ 0x8000 ∧ (d.part.fld 0x2044 0 16 : Int) < signed drift 16 then
    let r := min 255 (sget 0 d.mon.overRun m + 1)
    let d := d.onMon fun x => { x with overRun := sput 0 x.overRun m r, underRun := sput 0 x.underRun m 0 }
    if n ≤ r ∧ !d.part.bit 0x2054 m then
      d.onPart fun p => (p.setBit 0x2054 m true).raise 2 16
        { unit := m, detail := leBytes 1 m ++ leBytes 2 drift ++ leBytes 2 period ++ leBytes 2 base ++ leBytes 1 tv }
    else d
  else
    let r := min 255 (sget 0 d.mon.underRun m + 1)
    let d := d.onMon fun x => { x with underRun := sput 0 x.underRun m r, overRun := sput 0 x.overRun m 0 }
    if n ≤ r then d.onPart fun p => p.setBit 0x2054 m false else d

/-- One monitor's window (R95–R97): its MON word, its source, learning, alert and stall. A VALID baseline of 0 leaves
the drift unstated: a free value (log entry 5). An uncorrectable baseline word is no baseline, and faults the page (R459). -/
def Die.monitor (d : Die) (s : MonSample) : Die :=
  if 31 < s.m ∨ d.part.active 2 = false then d
  else
    let (period, rep) := s.period
    let bins := d.part.monBins
    let w := Mem.rdLE d.mon.base (4 * monCell s.m bins) 4
    let (e, p) := d.part.eccRead 2 (monCell s.m bins / 2) 0 s.ecc 0
    let d := { d with part := if e = Ecc.ue then p.pageFault 2 0x04 else p }
    let base := w % 65536
    let valid := w.testBit 24 && e != Ecc.ue
    let (drift, d) :=
      if !valid then (0x8000, d)
      else if base = 0 then
        let (x, p) := d.part.draw32
        (x.toNat % 65536, { d with part := p })
      else (driftOf period base, d)
    let d := d.onPart fun p => (p.setNum (0x2080 + 4 * s.m) (period + 65536 * drift)).setBit 0x2050 s.m rep
    let d := if d.part.bit 0x2040 1 && !valid && e != Ecc.ue then d.onMon fun m => m.learn (monCell s.m bins) period else d
    let d := d.driftAlert s.m drift period base bins
    if s.stall = 0 then d
    else d.onPart fun p => p.raise 2 17 { unit := s.m, detail := leBytes 1 s.m ++ leBytes 4 (min 0xFFFFFFFF s.stall) }

/-- What monitor `m` saw in a window, where the command does not say: free readings (log entry 5). -/
def MonSample.free (m n : Nat) : MonSample :=
  let x := (Config.free32 n).toNat % 65536
  { m := m, live := if Config.freeBool n then 256 else 0, selfNs := 256 * x, replica := x }

/-- The monitors at a window boundary (R94, R98): while the page is ACTIVE and MON_EN is 1 all 32 measure; a window in which
they do not ends every run of R97 (log entry 184). -/
def Die.monitors (d : Die) (ss : List MonSample) : Die :=
  if d.part.active 2 && d.part.bit 0x2040 0 then
    ((List.range 32).foldl (fun d m => match ss.find? fun s => s.m == m with
      | some s => d.monitor s
      | none => (d.onPart fun p => { p with fresh := p.fresh + 1 }).monitor (MonSample.free m d.part.fresh)) d).onPart
        fun p => p.event 2
  else d.onMon fun x => { x with overRun := [], underRun := [] }

/-- BASE_CLEAR (R96, R99): VALID and the learned counts of every cell. -/
def Die.baseClear (d : Die) : Die :=
  d.onMon fun m =>
    { m with acc := [], base := (List.range 1024).foldl (fun b c =>
        let w := Mem.rdLE b (4 * c) 4
        if w < 65536 then b else Mem.wrLE b (4 * c) 4 (w % 65536)) m.base }

/-- The partner periods written or loaded take effect (R84). -/
def Die.takePeriods (d : Die) : Die :=
  d.onMon fun m => { m with periods := (List.range 5).map fun g => d.part.fld (0x2060 + 4 * g) 0 16 }

/-- An exchange abandoned by an adapter (R85): group, port within the group, the handshake phase reached, and what the
exchange was. An abandoned halt, drain or resume request raises HALT_FAIL with reason 2 (R265), a gate response is
presented again later (R198), and a probe is judged NO_RESULT (R190). -/
def Die.adapterTimeout (d : Die) (group port phase : Nat) (what : Abandoned) : Die :=
  let d := d.onPart fun p => (p.inc 0x2058).raise 2 18
    { detail := leBytes 1 group ++ leBytes 2 port ++ leBytes 1 phase }
  match what with
  | .halt k => d.onPart fun p => p.raise (corePage k) 17
      { unit := k, opCode := 2, detail := leBytes 1 (p.fld (coreAddr k + 0x44) 3 3) ++ [2] }
  | .gateResponse => d.onOx fun o =>
      if o.resp.isEmpty || o.abandoned.isSome then o else { o with abandoned := some d.now }
  | .probe tag => match d.gauge.probes.find? fun w => w.tag == tag with
    | some w => d.probeAbandoned w
    | none => d
  | .other => d

end Sys2Proof.Machine
end

