-- ==== Sys2Proof/Machine/Headwater.lean ====
section
/-! DEFINITION. Headwater on a die (chapter 03): the exchange (R59, R60, R273), the discipline inputs (R61–R65), window
boundaries and schedule switches (R68–R70), and step markers (R106–R108). -/

namespace Sys2Proof.Machine

/-! ### Windows -/

/-- The boundary that opens window `k` under the schedule in force (R68). -/
def Die.boundaryOf (d : Die) (k : Nat) : Nat := d.part.num64 0x10A0 + (k - d.part.num64 0x10BC) * d.part.num 0x1098

/-- SWITCH_PENDING. -/
def Die.switchPending (d : Die) : Bool := d.part.bit 0x10B8 1

/-- Bytes one window's raw records take (R115, R116). -/
def rawBytes (mode count : Nat) : Nat := if mode = 2 then 131424 else if mode = 1 then 4 * count + 44 else 0

/-- Whether a raw mode exceeds 8 bytes per ns of a window length (R116). -/
def rawTooFast (mode count len : Nat) : Bool := decide (8 * len < rawBytes mode count)

/-- The new schedule takes effect (R69), Eddy's deadline follows it (R88), and a raw mode it makes too fast falls to 0
(R116). -/
def Die.switchSchedule (d : Die) : Die :=
  let nb := d.part.num64 0x10A8
  let len := d.part.num 0x109C
  let n := d.part.num64 0x10BC + (nb - d.part.num64 0x10A0) / max 1 (d.part.num 0x1098)
  let d := d.onPart fun p =>
    ((((p.setNum 0x1098 len).setNum64 0x10A0 nb).setNum64 0x10BC n).setBit 0x10B8 1 false)
  let d := if d.part.bit 0x2040 3 then
      let old := (d.part.hdr 0x10).deadline
      { d with
        eddy := { d.eddy with oldDeadline := some (nb, old.toNat) }
        part := d.part.modHdr 0x10 fun h => { h with deadline := BitVec.ofNat 32 len } }
    else d
  let mode := d.part.fld 0x40040 8 2
  if rawTooFast mode (d.part.fld 0x40050 0 13) len then
    d.onPart fun p => (p.setFld 0x40040 8 2 0).raise 0x40 21 { detail := leBytes 4 len ++ leBytes 1 mode }
  else d

/-- A pending GDID change takes effect (R396), with ATTN_PEND.GDID. The record of the window that closes at the boundary
carries the new identity (log entry 174). -/
def Die.gdidChange (d : Die) : Die :=
  match d.glob.gdidNext with
  | none => d
  | some g => (d.onGlob fun x => { x with gdidNext := none }).onPart fun p => (p.setNum 0x40 g).setBit 0x50 2 true

/-- A pending switch whose NEXT_BASE has been reached inside the open window, as after a backward step, takes effect there
(R69); one due at the window's own end is taken with the boundary. -/
def Die.switchDue (d : Die) : Die :=
  let nb := d.part.num64 0x10A8
  if d.switchPending && decide (nb ≤ d.now) && decide (nb < d.boundaryOf (d.spring.window.index + 1)) then d.switchSchedule
  else d

/-- One window closes and the next opens. `move` is what happens to time or schedule between the two, `next` the window
that opens. -/
def Die.turnWindow (d : Die) (len : Nat) (short : Bool) (ss : List MonSample) (move : Die → Die)
    (next : Die → OpenWindow) : Die :=
  let d := d.gdidChange.monitors ss
  let closed := if d.part.active 0x40 then some d.spring.window.index else none
  let d := d.closeWindow len short
  let d := if closed.isSome then d.rifLatch.edLatch else d
  let d := (d.onPart Part.lateSummaries).boundaryTaps
  let d := move d
  let w := next d
  let d := (d.rifBoundary w.index closed).edBoundary w.index closed
  d.takePeriods.openWindow w

/-- WINDOW_BOUNDARY (R68): the open window runs to the end of its index; a switch due inside it (after a backward step)
or at its boundary is taken (R69). -/
def Die.windowBoundary (d : Die) (ss : List MonSample) : Die :=
  let k := d.spring.window.index + 1
  let d := if d.switchPending && decide (d.part.num64 0x10A8 < d.boundaryOf k) then d.switchSchedule else d
  let e := d.boundaryOf k
  let d := d.onPart fun p => p.reach e
  let w := d.spring.window
  d.turnWindow ((e * 65536 - w.countFrom - w.lost) / 65536) w.short ss
    (fun d => if d.switchPending && decide (d.part.num64 0x10A8 ≤ e) then d.switchSchedule else d)
    (fun _ => { index := k, start := e, countFrom := e * 65536 })

/-- START of the open window in 2⁻¹⁶ ns: a window opened by a backward step keeps the fraction of its time. -/
def OpenWindow.start16 (w : OpenWindow) : Nat := if w.countFrom / 65536 = w.start then w.countFrom else w.start * 65536

/-- What a step of the counter to `t` does to the windows (R69, R70); `ss` is what the monitors saw in a window it closes. -/
def Die.stepWindow (d : Die) (t : Time) (ss : List MonSample) : Die :=
  let old := d.part.time.toNat / 65536
  let new := t.toNat / 65536
  let w := d.spring.window
  let jump (d : Die) : Die := d.onPart fun p => { p with time := t }
  if old ≤ new then
    let nb := d.part.num64 0x10A8 * 65536
    let cross := d.switchPending && decide (old < nb ∧ nb ≤ new)
    let inside := if cross then d.switchSchedule.boundaryOf (w.index + 1) else d.boundaryOf (w.index + 1)
    if new < inside * 65536 then
      let d := if cross then d.switchSchedule else d
      jump (d.onSpring fun s => { s with window := { w with short := true, lost := w.lost + (new - old) } })
    else
      (jump d).turnWindow ((old - w.start16) / 65536) true ss
        (fun d => if cross then d.switchSchedule else d)
        (fun d =>
          let k := max (w.index + 1)
            (d.part.num64 0x10BC + (d.now - d.part.num64 0x10A0) / max 1 (d.part.num 0x1098))
          { index := k, start := d.boundaryOf k, countFrom := new, short := true })
  else
    (jump d).turnWindow ((old - w.start16) / 65536) true ss id
      (fun d => { index := w.index + 1, start := d.now, countFrom := new })

/-- SWITCH_ARM (R69, R78). -/
def Die.switchArm (d : Die) (w : W32) : Die :=
  let nb := d.part.num64 0x10A8
  let b := d.part.num64 0x10A0
  let len := d.part.num 0x109C
  if d.switchPending || decide (nb < b) || decide ((nb - b) % max 1 (d.part.num 0x1098) ≠ 0) ||
      decide (nb * 4294967296 < d.part.time.toNat + 1000000 * 4294967296) || decide (len < 1000 ∨ 10000000 < len) then
    d.onPart fun p => p.accessErr 1 0x10B8 w true
  else d.onPart fun p => p.setBit 0x10B8 1 true

/-! ### Discipline -/

/-- The discipline settings of a die (R78). -/
def Die.discCfg (d : Die) : DiscCfg :=
  { jump := d.part.num 0x1064, lock := d.part.num 0x1068, kp := d.part.fld 0x1070 0 4, ki := d.part.fld 0x1070 8 4
    servo := d.part.bit 0x104C 0, trimSet := signed (d.part.num 0x1060) 32 }

/-- The counter stepped by an offset (R62): windows (R70), STEP registers, STEP_APPLIED, the gate cycle (R282), and the pool (R76). The time
the exchange count runs from moves with the counter (log entry 28). -/
def Die.applyStep (d : Die) (o : Int) (first : Bool) (ss : List MonSample) : Die :=
  let t : Time := BitVec.ofInt 96 ((d.part.time.toNat : Int) + o * 65536)
  let d := d.stepWindow t ss
  let ns := sar o 16
  let d := d.onPart fun p =>
    let p := { p with disc := { p.disc with countFrom := ((p.disc.countFrom : Int) + ns).toNat } }
    ((p.setNum64 0x1088 (twos ns 64)).setNum64 0x1090 p.now).raise 1 20
      { detail := leBytes 8 (twos ns 64) ++ [if first then 0 else 1] }
  ({ d with port := gateStepped d.part d.port (o * 65536) }).poolFlush (d.hw.pool.length + 1)

/-- What a discipline input asks of the die (R61, R62, R64, R79). -/
def Die.discDo (d : Die) (x : Disc) (a : DiscDo) (o : Int) (ss : List MonSample) : Die :=
  let first := !d.part.disc.stepped
  let lockedNow := x.state == .locked && d.part.disc.state != .locked
  let d := d.onPart fun p => { p with disc := x }
  let d := if lockedNow then d.onPart fun p => p.setBit 0x50 3 true else d
  let d := if a.accepted then d.onPart fun p => p.event 1 else d
  let d := match a.clamp with
    | some t => d.onPart fun p => p.raise 1 21
        { detail := leBytes 4 (twos (max (-0x80000000) (min 0x7FFFFFFF t)) 32) }
    | none => d
  let d := if a.refused then d.onPart fun p => (p.inc 0x1080).raise 1 16
      { detail := leBytes 8 (twos (sar o 16) 64) ++ leBytes 4 (p.num 0x1064) } else d
  let d := if a.missing then d.onPart fun p => p.raise 1 18 { detail := leBytes 4 (p.num 0x1084) } else d
  let d := match a.step with | some o => d.applyStep o first ss | none => d
  match a.unsync with
  | some c => d.onPart fun p => p.raise 1 17 { detail := leBytes 1 c }
  | none => d

/-- TIME_SYNC received (R59, R273): t2 is the arrival; TIME_DELAY goes to S0. Not answered outside ACTIVE (R77). -/
def Die.timeSync (d : Die) (exch t1 cDown : Nat) : Die :=
  if !d.part.active 1 then d
  else
    let d := d.onHw fun h =>
      { h with exch := some { seq := exch, t1 := t1, cDown := cDown, t2 := d.part.time.toNat / 65536 } }
    let (p, s) := putS0 d.part d.port none { typ := 3, len := 24, body := .timeDelay exch 0, enq := d.part.t }
    { d with part := p, port := s }

/-- TIME_DELAY has gone out (R273): t3 and c_up of the exchange. -/
def Die.timeDelaySent (d : Die) (exch t3 cUp : Nat) : Die :=
  d.onHw fun h => { h with exch := h.exch.map fun x => if x.seq = exch then { x with up := some (t3, cUp) } else x }

/-- Offset and delay of a complete exchange (R60), in 2⁻¹⁶ ns as signed 64-bit quantities; `asym` is ASYM. -/
def offsetDelay (t1 cDown t2 t3 cUp t4 : Nat) (asym : Int) : Int × Int :=
  let down := wrap64 ((t2 : Int) - t1 - cDown)
  let up := wrap64 ((t4 : Int) - t3 - cUp)
  (wrap64 (sar (wrap64 (up - down)) 1 + asym), sar (wrap64 (up + down)) 1)

/-- TIME_RESP received (R60): the exchange is complete; offset, delay, and the measurement input. `stale` tells that a later
exchange has started, so that this one yields no measurement (R59). LAST_DELAY holds a negative delay as 0 and one beyond 32
bits as all ones (log entry 181). -/
def Die.timeResp (d : Die) (exch t4 : Nat) (stale : Bool) (ss : List MonSample) : Die :=
  if !d.part.active 1 then d
  else match d.hw.exch with
  | none => d
  | some x => match x.up with
    | none => d
    | some (t3, cUp) =>
      if x.seq ≠ exch then d
      else if stale then d.onHw fun h => { h with exch := none }
      else
        let (o, dl) := offsetDelay x.t1 x.cDown x.t2 t3 cUp t4 (signed (d.part.fld 0x1074 0 16) 16 * 256)
        let d := d.onHw fun h => { h with exch := none }
        let d := d.onPart fun p =>
          let p := (p.setNum 0x1078 (twos (clampAbs (sar o 12) 0x7FFFFFFF) 32)).setNum 0x107C
            (min 0xFFFFFFFF (sar dl 12).toNat)
          { p with disc := { p.disc with missRun := 0, countFrom := x.t2 / 65536 } }
        if d.part.disc.refLoss then d
        else
          let (y, a) := d.part.disc.measure d.discCfg o d.now
          d.discDo y a o ss

/-- EXCHANGE_INCOMPLETE (R59): the next incomplete exchange is counted; every third is MISS3. -/
def Die.exchangeIncomplete (d : Die) : Die :=
  if !d.part.active 1 then d
  else
    let x := d.part.disc
    let d := d.onPart fun p =>
      { (p.reach (x.countFrom + 1500000 + 1000000 * x.missRun)).inc 0x1084 with
        disc := { x with missRun := x.missRun + 1 } }
    if (x.missRun + 1) % 3 = 0 then
      let (y, a) := d.part.disc.miss3 d.discCfg d.now
      d.discDo y a 0 []
    else d

/-- HOLD_TIMEOUT (R61). -/
def Die.holdTimeout (d : Die) : Die :=
  if d.part.active 1 && d.part.disc.state == .holdover then
    let d := d.onPart fun p => p.reach (p.disc.holdSince + p.num 0x106C)
    let (y, a) := d.part.disc.holdTimeout
    d.discDo y a 0 []
  else d

/-- REF_LOSS (R61, R65); while the page is not ACTIVE the trim holds its value (R77). -/
def Die.refLoss (d : Die) : Die :=
  if d.part.disc.refLoss then d
  else
    let (y, a) := d.part.disc.lose d.discCfg d.now
    let y := if d.part.active 1 then y else { y with trim := d.part.disc.trim }
    let d := d.onPart fun p => { p with disc := y }.raise 1 19 { detail := leBytes 8 p.now }
    d.discDo y a 0 []

/-- REF_RETURN (R61, R65). -/
def Die.refReturn (d : Die) : Die := d.onPart fun p => { p with disc := p.disc.regain }

/-- The trim taken from TRIM_SET while SERVO_EN is 0 (R64), with TRIM_CLAMP; outside ACTIVE the trim holds (R77). -/
def Die.trimFromSet (d : Die) : Die :=
  if d.part.bit 0x104C 0 || !d.part.active 1 then d
  else
    let t := signed (d.part.num 0x1060) 32
    let t' := clampAbs t trimLimit
    let d := d.onPart fun p => { p with disc := { p.disc with trim := t' } }
    if t = t' then d else d.onPart fun p => p.raise 1 21 { detail := leBytes 4 (twos t 32) }

/-- SERVO_EN changed to `on` (R64): handing the rate back loads the integral with the trim in force. -/
def Die.servoWrite (d : Die) (on : Bool) : Die :=
  let d := d.onPart fun p => p.setBit 0x104C 0 on
  if on then d.onPart fun p => { p with disc := { p.disc with integ := p.disc.trim } } else d.trimFromSet

/-- ARM_RESTEP and DISARM (R63). -/
def Die.restepArm (d : Die) (on : Bool) : Die := d.onPart fun p => { p with disc := { p.disc with armed := on } }

/-- The HEADWATER page enters ACTIVE (R59, R64): the exchange count runs from the entry. -/
def Die.hwActive (d : Die) : Die :=
  (d.onPart fun p => { p with disc := { p.disc with missRun := 0, countFrom := p.now } }).trimFromSet

/-- The HEADWATER page leaves ACTIVE: no exchange is answered, and a drain discards a pending switch (R77, R78). -/
def Die.hwDrain (d : Die) : Die := (d.onHw fun h => { h with exch := none }).onPart fun p => p.setBit 0x10B8 1 false

/-! ### Step markers -/

/-- A step record (R290) of marker `m` at `ts`. -/
def Die.stepRecord (d : Die) (m ts : Nat) (brk : Bool) : Rec :=
  let p := d.part
  let l := d.eddy.last
  let stepNs := match d.spring.prevMarker with
    | some t => if brk then 0xFFFFFFFF else min 0xFFFFFFFE (ts - t)
    | none => 0xFFFFFFFF
  let flagged := (p.num 0x8054 ≠ 0 ∧ m ≤ p.num 0x8054) ∨ p.bit 0x8044 4 = true
  { kind := .step, tag := m
    bytes := withCrc (leBytes 4 p.gdid ++ [2] ++
      leBytes 1 (flagBits p.provisional p.disc.unsynced + 32 * b2n brk) ++ leBytes 2 d.partition ++ leBytes 4 d.job ++
      leBytes 4 m ++ leBytes 8 ts ++ leBytes 4 stepNs ++
      leBytes 1 (p.fld 0x100 0 3 + 8 * p.topLevel + 32 * b2n d.disputed + 64 * b2n (decide flagged)) ++
      leBytes 1 (l.valid + 16 * l.alarm) ++ leBytes 2 (l.residues + 4096 * l.marks) ++
      (l.scores.map fun s => leBytes 4 s).flatten ++ leBytes 8 l.window ++ [0, 0, 0, 0]) }

/-- Whether a window that has closed contains a timestamp. -/
def WinJob.holds (j : WinJob) (ts : Nat) : Bool := decide (j.start ≤ ts ∧ ts < j.close)

/-- A marker accepted late, put to the account of the closed window that contains its timestamp (R106). -/
def WinJob.mark (m ts : Nat) (j : WinJob) : WinJob :=
  { j with steps := min 0xFFFF (j.steps + 1), lastStep := m, lastStepOff := ts - j.start }

/-- A marker counted in the window that contains its timestamp (R106): the open one, or one whose record is still to come.
R106 has no window close without its markers, so the record of any older window is taken as complete. -/
def Die.countMarker (d : Die) (m ts : Nat) : Die :=
  let w := d.spring.window
  let put (js : List WinJob) : List WinJob := (changeFirst (fun j => j.holds ts) (WinJob.mark m ts) js.reverse).reverse
  if w.start ≤ ts then d.onSpring fun s => { s with steps := min 0xFFFF (s.steps + 1), stepOff := ts - w.start }
  else if d.spring.closing.any fun j => j.holds ts then d.onSpring fun s => { s with closing := put s.closing }
  else if d.riffle.queue.any fun j => j.holds ts then { d with riffle := { d.riffle with queue := put d.riffle.queue } }
  else { d with eddy := { d.eddy with queue := put d.eddy.queue } }

/-- STEP_MARKER (R84, R106–R108): number `m` arrives at `at_`; `lost` names a marker overrun before it (R107). -/
def Die.stepMarker (d : Die) (m at_ : Nat) (lost : Option Nat) : Die :=
  let d := match lost with
    | some n => d.onPart fun p => (p.inc 0x40060).raise 0x40 18 { detail := leBytes 4 n }
    | none => d
  let d := d.onPart fun p => p.reach at_
  let ts := (d.part.time.toNat * 2000 / 4294967296 - 5 * d.mon.periods.getD 1 500) / 2000
  let last := d.part.num 0x40054
  let brk := d.spring.seenMarker && decide (m ≠ (last + 1) % 4294967296)
  let d := if brk then d.onPart fun p => (p.inc 0x40078).raise 0x40 19 { detail := leBytes 4 (last + 1) ++ leBytes 4 m }
    else d
  let d := d.countMarker m ts
  let d := d.onPart fun p => (p.setNum 0x40054 m).setNum64 0x40058 ts
  let d := if d.part.active 0x40 && wbit d.spring.cfg.ctl 1 then
      let d := d.onPart fun p => p.stageStart 0x40 1 0 0 p.now
      d.deliverStep (d.stepRecord m ts brk)
    else d
  (d.onSpring fun s => { s with prevMarker := some ts, seenMarker := true }).pstepMarker m ts

end Sys2Proof.Machine
end

