-- ==== Sys2Proof/Machine/Identity.lean ====
section
/-! DEFINITION. Identity records (R398, R399) and the die's identity: sideband reads (R401–R403, R412) and GDID_SET
(R396). -/

namespace Sys2Proof.Machine

/-! ### The record check, shared with the aggregator -/

/-- The sections of a record from byte `i` to the CRC at `e` (R398): types and bodies, or `none` where one runs past the
CRC or its length is not a multiple of 4. `f` bounds the sections left. -/
def idSections (bs : List Byte) (e : Nat) : Nat → Nat → Option (List (Nat × List Byte))
  | 0, i => if i = e then some [] else none
  | f + 1, i =>
    if i = e then some []
    else
      let n := leNat ((bs.drop (i + 2)).take 2)
      if n < 4 ∨ n % 4 ≠ 0 ∨ e < i + n then none
      else match idSections bs e f (i + n) with
      | none => none
      | some r => some ((leNat ((bs.drop i).take 2), (bs.drop (i + 4)).take (n - 4)) :: r)

/-- The stated body length of a section of fixed layout, and its byte ranges that are not reserved (R398). -/
def idShape (typ : Nat) : Option (Nat × List (Nat × Nat)) :=
  match typ with
  | 0x0001 => some (12, [(0, 10)])
  | 0x0010 => some (8, [(0, 6)])
  | 0x0011 => some (8, [(0, 1), (2, 6)])
  | 0x0012 => some (8, [(0, 4)])
  | 0x0013 => some (8, [(0, 4)])
  | 0x0020 => some (28, [(0, 18), (20, 26)])
  | _ => none

/-- The body of a LEVEE section has its stated length, its reserved bytes zero and its values in range (R398). -/
def leveeOk (b : List Byte) : Bool :=
  let at_ (i n : Nat) : Nat := leNat ((b.drop i).take n)
  b.length == 1612 && decide (1 ≤ at_ 0 1 ∧ at_ 0 1 ≤ 40 ∧ at_ 1 1 = 0 ∧ at_ 2 2 ≤ 10000) &&
  ((List.range 16).all fun d => !(at_ 4 8).testBit (4 * d + 3)) &&
  (List.range 96).all fun c => at_ (0x4C + 16 * c + 1) 1 == 0 && at_ (0x4C + 16 * c + 14) 2 == 0 &&
    decide (at_ (0x4C + 16 * c) 1 < 16 ∧ at_ (0x4C + 16 * c + 2) 2 < 4096)

/-- A section's body passes the reserved-field check (log entry 29): a stated layout has at least its length, and bytes
outside its fields, or after the last whole entry of a map, are zero. -/
def idBodyOk (s : Nat × List Byte) : Bool :=
  if s.1 = 0x0021 then leveeOk s.2
  else if s.1 = 2 then (s.2.drop (s.2.length / 36 * 36)).all fun b => b == 0
  else if s.1 = 3 then (s.2.drop (s.2.length / 8 * 8)).all fun b => b == 0
  else match idShape s.1 with
  | none => true
  | some (n, fs) =>
    decide (n ≤ s.2.length) &&
    (List.range s.2.length).all fun i => fs.any (fun f => decide (f.1 ≤ i ∧ i < f.2)) || s.2.getD i 0 == 0

/-- The section a KIND requires (R398). -/
def idRequired (kind : Nat) : Nat :=
  match kind with
  | 1 => 0x0001 | 2 => 0x0010 | 3 => 0x0011 | 4 => 0x0012 | 5 => 0x0013 | _ => 0x0020

/-- The SIGNED flag of a record. -/
def idSigned (bs : List Byte) : Bool := (bs.getD 6 0).toNat.testBit 0

/-- The byte at which the CRC of a record begins (R398). -/
def idCrcAt (bs : List Byte) : Nat := leNat ((bs.drop 8).take 4) - (if idSigned bs then 108 else 4)

/-- The sections of a record that R399 accepts in format, for the KINDs its reader expects. -/
def idParse (bs : List Byte) (kinds : List Nat) : Option (List (Nat × List Byte)) :=
  let len := leNat ((bs.drop 8).take 4)
  let kind := (bs.getD 5 0).toNat
  let nsect := (bs.getD 7 0).toNat
  if bs.take 5 = [0x49, 0x44, 0x4E, 0x31, 0x01] ∧ kind ∈ kinds ∧ (bs.getD 6 0).toNat < 2 ∧ 1 ≤ nsect ∧ nsect ≤ 32 ∧
      76 ≤ len ∧ len ≤ 16384 ∧ len % 4 = 0 ∧ bs.length = len ∧ (idSigned bs → 172 ≤ len) ∧
      (bs.drop 0x38).take 8 = List.replicate 8 0 then
    match idSections bs (idCrcAt bs) nsect 0x40 with
    | none => none
    | some ss =>
      let ts := ss.map (·.1)
      if ss.length = nsect ∧ idRequired kind ∈ ts ∧
          (ts.all fun t => t == 2 || t == 3 || decide (ts.count t ≤ 1)) = true ∧ ss.all idBodyOk = true then some ss
      else none
  else none

/-- Whether a record's CRC matches (R398, R399). -/
def idCrcOk (bs : List Byte) : Bool :=
  (crc32 (bs.take (idCrcAt bs))).toNat == leNat ((bs.drop (idCrcAt bs)).take 4)

/-- How a record read in full is judged (R399): RESULT 1, 4 FORMAT or 5 CRC, with its sections when accepted. A record
that fails both is FORMAT (log entry 29). -/
def idJudge (bs : List Byte) (kinds : List Nat) : Nat × List (Nat × List Byte) :=
  match idParse bs kinds with
  | none => (4, [])
  | some ss => if idCrcOk bs then (1, ss) else (5, [])

/-- The body of the first section of a type. -/
def idSect (ss : List (Nat × List Byte)) (t : Nat) : Option (List Byte) := (ss.find? fun s => s.1 == t).map (·.2)

/-! ### The die's reads -/

/-- The die with its IDENT state changed. -/
def Die.onIdent (d : Die) (f : IdentState → IdentState) : Die := { d with ident := f d.ident }

/-- Address of TGT_STAT of a target. -/
def tgtAddr (t : Nat) : Nat := 0x41050 + 4 * t

/-- The next target's read begins, targets of absent stacks being skipped with RESULT 7 (R401); with none left the read
ends and ATTN_PEND.IDENT_DONE is set. -/
def Die.identNext (d : Die) : List Nat → Die
  | [] => (d.onIdent fun i => { i with left := [] }).onPart fun p => (p.setBit 0x41044 0 false).setBit 0x50 4 true
  | t :: ts =>
    if 0 < t ∧ sget false d.ties.tapAbsent (1936 + 8 * (t - 1)) = true then
      (d.onPart fun p => p.setFld (tgtAddr t) 0 3 7).identNext ts
    else
      (d.onIdent fun i => { i with left := t :: ts }).onPart fun p =>
        ((p.setBit 0x41044 0 true).setFld 0x41044 8 4 t).stageStart 0x41 0 t 0 p.now

/-- A read of targets begins (R401). -/
def Die.identBegin (d : Die) (ts : List Nat) : Die := (d.onPart fun p => p.setBit 0x41044 0 true).identNext ts

/-- CTL.READ_ALL and READ_ONE (R401, R411): refused while BUSY, outside ACTIVE, or for a TARGET above 8. -/
def Die.identCtl (d : Die) (w : W32) : Die :=
  let all := wbit w 0
  let one := wbit w 1
  let t := bitsOf w.toNat 8 4
  if !all && !one then d
  else if !d.part.active 0x41 || d.part.bit 0x41044 0 || (!all && decide (8 < t)) then
    d.onPart fun p => p.accessErr 0x41 0x41040 w true
  else if all then d.identBegin [0, 1, 2, 3, 4, 5, 6, 7, 8]
  else d.identBegin [t]

/-- PARTNER_PERIOD_PS of target 0 loaded (R403): nonzero, within 312–4,000 ps, and never over a value the driver wrote. -/
def Die.loadPeriods (d : Die) (body : List Byte) : Die :=
  (List.range 5).foldl (fun d g =>
    let v := leNat ((body.drop (2 * g)).take 2)
    if 312 ≤ v ∧ v ≤ 4000 ∧ sget false d.ident.periodSet g = false then d.onPart fun p => p.setFld (0x2060 + 4 * g) 0 16 v
    else d) d

/-- A target's read ends without a record (R401, R402, R412). -/
def Die.identFail (d : Die) (t result bytes : Nat) : Die :=
  d.onPart fun p =>
    (((p.setFld (tgtAddr t) 0 3 result).setBit (tgtAddr t) 4 true).inc 0x4104C).raise 0x41 16
      { unit := t, detail := leBytes 1 t ++ leBytes 1 result ++ leBytes 2 bytes ++
          leBytes 1 (p.fld (0x41080 + 4 * t) 0 7) }

/-- The read in progress ends (R402): an accepted record replaces the store, a failure leaves it and sets STALE. A DRAIN
lets the target in progress complete and ends the rest. -/
def Die.identDone (d : Die) (r : IdentRead) : Die :=
  match d.ident.left with
  | [] => d
  | t :: ts =>
    let d := d.onPart fun p => (p.stageDone 0x41 0 t).2
    let d := match r with
      | .absent => d.identFail t 2 0
      | .readErr n => d.identFail t 3 n
      | .record bs =>
        match idJudge bs [if t = 0 then 1 else 2] with
        | (1, ss) =>
          let d := d.onIdent fun i =>
            { i with stores := Mem.wrBytes i.stores (16384 * t) (padTo 16384 bs) }
          let d := d.onPart fun p =>
            let a := tgtAddr t
            ((((((p.setFld a 0 3 1).setBit a 3 (idSigned bs)).setBit a 4 false).setFld a 8 8
              (p.fld a 8 8 + 1)).setFld a 16 15 bs.length)).event 0x41
          if t = 0 then match idSect ss 1 with
            | some b => d.loadPeriods b
            | none => d
          else d
        | (n, _) => d.identFail t n bs.length
    if d.part.active 0x41 then d.identNext ts else d.identNext []

/-! ### GDID -/

/-- GDID_SET (R396). -/
def Die.gdidSet (d : Die) (w : W32) : Die :=
  let assigned := d.part.num 0x40 ≠ 0xFFFFFFFF
  if w = 0xFFFFFFFF then
    if assigned then d.onGlob fun g => { g with gdidNext := some 0xFFFFFFFF }
    else d.onGlob fun g => { g with gdidNext := none }
  else if w.toNat < 0x40000 ∧ ¬assigned then d.onGlob fun g => { g with gdidNext := some w.toNat }
  else d.onPart fun p => p.accessErr 0 0x44 w true

end Sys2Proof.Machine
end

