-- ==== Sys2Proof/Machine/Pages.lean ====
section
/-! DEFINITION. The life cycle of a page (R41–R43) on either part, what its inputs do on a die, and SOFT_CLEAR (R39). -/

namespace Sys2Proof.Machine

/-- What an input of R41 did, for the page's own part in it: it entered ENABLING, left ENABLING or ACTIVE for DRAINING,
left FAULTED for DRAINING, took DRAIN in OFF or DRAINING, reached OFF, or entered ACTIVE. -/
inductive PageAct where
  | none | starts | stops (active : Bool) | discards | cancels | ends | runs
  deriving DecidableEq, Repr

/-- Whether a PAGE_CTL write is refused whole (R41, R47): ENABLE with DRAIN, or either while an injection of CMD_ERR is
armed. -/
def ctlRefused (armed : Bool) (w : W32) : Bool := (wbit w 0 && wbit w 1) || (armed && (wbit w 0 || wbit w 1))

/-- The input ENABLE (R41, R43). -/
def Part.enableInput (p : Part) (page data : Nat) : PageAct × Part :=
  match p.pstate page with
  | .off => (.starts, p.modHdr page fun h => { h with state := .enabling })
  | .draining => (.none, p.modHdr page fun h => { h with enablePending := true })
  | .faulted => (.none, p.cmdErr page data)
  | _ => (.none, p)

/-- The input DRAIN (R41, R43); the drain bound counts from the entry to DRAINING (R42). -/
def Part.drainInput (p : Part) (page : Nat) : PageAct × Part :=
  let go (p : Part) : Part :=
    p.modHdr page fun h => { h with state := .draining, enablePending := false, drainSince := p.now }
  match p.pstate page with
  | .off => (.cancels, p)
  | .draining => (.cancels, p.modHdr page fun h => { h with enablePending := false })
  | .faulted => (.discards, go p)
  | .active => (.stops true, go p)
  | .enabling => (.stops false, go p)

/-- The input enable done (R41): discarded outside ENABLING. -/
def Part.enabledInput (p : Part) (page : Nat) : PageAct × Part :=
  match p.pstate page with
  | .enabling => (.runs, p.modHdr page fun h => { h with state := .active })
  | _ => (.none, p)

/-- The input drain done (R41, R43): ENABLING with an enable pending, else OFF. -/
def Part.drainedInput (p : Part) (page : Nat) : PageAct × Part :=
  match p.pstate page with
  | .draining =>
    if (p.hdr page).enablePending then
      (.starts, p.modHdr page fun h => { h with state := .enabling, enablePending := false })
    else (.ends, p.modHdr page fun h => { h with state := .off })
  | _ => (.none, p)

/-- The drain bound of a page, in ns (R42). -/
def drainBound : Nat := 10000000

/-- DRAIN_TIMEOUT (R42): the page enters FAULTED with a record of detail 0x0A naming the ns spent in DRAINING. -/
def Part.drainTimeout (p : Part) (page : Nat) : Part :=
  match p.pstate page with
  | .draining =>
    let since := (p.hdr page).drainSince
    let p := p.reach (since + drainBound)
    (p.modHdr page fun h => { h with state := .faulted, enablePending := false }).report
      (if p.isAgg then .agg else .s2) page 0x0A { detail := leBytes 4 (min 0xFFFFFFFF (p.now - since)) }
  | _ => p

/-- The word offsets in a page of the block statistics that SOFT_CLEAR zeroes (R39), by class. -/
def softWords : PageClass → List Nat
  | .headwater => [0x80, 0x84, 0xC8, 0xCC]
  | .selftime => [0x54, 0x58]
  | .spring => [0x60, 0x68, 0x70, 0x74, 0x78]
  | .ident => [0x4C]
  | .riffle => [0x6C] ++ arr 0x70 4 7 ++ [0x8C]
  | .eddy => arr 0x68 4 5
  | .gauge => arr 0xA4 4 7
  | .gaugeEng => ((List.range 64).map fun i => [0x40 + 0x20 * i + 8, 0x40 + 0x20 * i + 0xC, 0x40 + 0x20 * i + 0x10]).flatten
  | .oxbow => arr 0x7C 4 8
  | .bore => [0x70, 0x74, 0x78, 0x7C, 0x80, 0x90]
  | .boreBar => (List.range 64).map fun i => 0x40 + 0x20 * i + 0x18
  | .meander => [0x64, 0x74, 0x78]
  | .meanderCore => [0x50, 0x54, 0x58, 0x5C, 0x60, 0x64, 0x68]
  | .sluice => arr 0x48 4 7 ++ arr 0x6C 4 5 ++ arr 0x14C 0x10 11
  | .trib => arr 0x4C 4 5
  | .tribPort => arr 0x4C 4 5 ++ arr 0x14C 0x10 11
  | .confluence => arr 0xB0 4 17
  | .millrace => arr 0xA0 4 7
  | .levee => arr 0x8C 4 4 ++ arr 0x700 4 32
  | .estuary => arr 0x5C 4 6 ++ arr 0x9C 0x20 4
  | .ring => [0x70]
  | .eth => arr 0x50 4 9
  | .dram => arr 0x50 4 16
  | _ => []

/-- SOFT_CLEAR (R39): the common header and the block statistics. -/
def Part.softClear (p : Part) (page : Nat) : Part :=
  let p := p.softClearHdr page
  match pageClass p.isAgg page with
  | none => p
  | some c => p.zero ((softWords c).map fun o => page * 0x1000 + o)

/-- SOFT_CLEAR of a die page: HIGH_WATER fields fall to 0, and the entries lost since a STRICT_LOST record are forgotten
with its count (R78, R118, R278). DESIGN CHOICE (log entry 184): SELFTIME's runs of windows over the limit go on. -/
def Die.softClear (d : Die) (page : Nat) : Die :=
  let d := d.onPart fun p => p.softClear page
  if page = 1 then d.onPart fun p => p.setFld 0x10C4 8 6 0
  else if page = 0x40 then d.onPart fun p => p.setFld 0x40064 16 9 0
  else if page = 0x30 then { d with port := { d.port with lostSince := [] } }
  else d

/-! ### The die's part in a page's inputs -/

/-- Engines of a GAUGE_ENG page, or all of them for GAUGE. -/
def pageEngines (page : Nat) : List Nat :=
  if page = 0x18 then List.range 640 else (List.range 64).map fun i => (page - 0x020) * 64 + i

/-- The engines whose registers differ from reset or that Gauge has met stay the ones scheduled: every present engine. -/
def Die.gaugeActive (d : Die) (page : Nat) : Die := (d.scheduleFrom (pageEngines page)).disputeRun

/-- A core's stream stops (R250, R263): its held outcomes go out, its FIFO is framed out, and a stall is released. -/
def Die.traceStop (d : Die) (k : Nat) : Die :=
  let d := if (d.core k).started then d.flushBranch k else d
  let d := d.stallEnd k
  d.setCore k { d.core k with part := true, started := false }

/-- The settings of every comparator and watchpoint delivered to a core whose page has become ACTIVE (R263; log entry
33). -/
def Die.compSendAll (d : Die) (k : Nat) : Die := (List.range 12).foldl (fun d i => d.compSend k i) d

/-- A page's enable sequence starts (R41): GAUGE runs the reference self-test (R186), and OXBOW treats the requests that a drain
left waiting as in OFF (R215). -/
def Die.pageStarts (d : Die) (page : Nat) : Die :=
  if page = 0x18 then d.refStart else if page = 8 then d.oxHead else d

/-- A page has become ACTIVE. -/
def Die.pageRuns (d : Die) (page : Nat) : Die :=
  match dieClass page with
  | some .headwater => d.hwActive
  | some .gauge => d.gaugeActive page
  | some .gaugeEng => d.gaugeActive page
  | some .oxbow => d.oxHead
  | some .spring => d.onSpring fun s => { s with prevMarker := none, seenMarker := false, resumed := true }
  | some .trib => d.onLane fun p s => linkEnable p s none
  | some .meanderCore => d.compSendAll (page - 0x100)
  | some .meander => d.sinkCheck
  | _ => d

/-- A page leaves ACTIVE, by DRAIN or by a fault: what stops with it. -/
def Die.pageLeaves (d : Die) (page : Nat) : Die :=
  match dieClass page with
  | some .headwater => d.onHw fun h => { h with exch := none }
  | some .trib => d.laneAct fun p s => linkDisable p s none
  | some .meander => d.bufDisarm
  | some .meanderCore => d.traceStop (page - 0x100)
  | _ => d

/-- A page starts to drain out of ENABLING or ACTIVE (R41). -/
def Die.pageStops (d : Die) (page : Nat) (active : Bool) : Die :=
  let d := if active then d.pageLeaves page else d
  match dieClass page with
  | some .headwater => d.hwDrain
  | some .riffle => d.rifCancel
  | some .eddy => d.edCancel
  | some .gauge => d.gaugeDrain
  | _ => d

/-- SLUICE drains out of FAULTED (R41): each job held is discarded, and its record counted as its producer's loss. -/
def Die.sluiceDiscard (d : Die) : Die :=
  d.port.jobs.foldl (fun d j => (d.onPart fun p => p.stageDrop 0x30 0 0).recordLost j.rc)
    { d with port := { d.port with jobs := [] } }

/-- A page starts to drain out of FAULTED (R41): held work is discarded. -/
def Die.pageDiscards (d : Die) (page : Nat) : Die :=
  match dieClass page with
  | some .headwater => d.hwDrain
  | some .spring => d.springDiscard
  | some .riffle => { d.rifCancel with riffle := { d.rifCancel.riffle with held := none } }
  | some .eddy => d.edCancel.edRelease
  | some .gauge => d.gaugeDiscard
  | some .gaugeEng => d.engDiscard page
  | some .oxbow => d.oxDiscardAll
  | some .sluice => d.sluiceDiscard
  | _ => d

/-- DRAIN of a page in OFF or DRAINING (R41): what DRAIN cancels in every page state, which are the pending window-length
switch (R78), Riffle's pending swap (R134) and Eddy's armed group (R158, R160; log entry 180). -/
def Die.pageCancels (d : Die) (page : Nat) : Die :=
  match dieClass page with
  | some .headwater => d.hwDrain
  | some .riffle => d.rifCancel
  | some .eddy => d.edCancel
  | _ => d

/-- A page reaches OFF. -/
def Die.pageEnds (d : Die) (page : Nat) : Die :=
  match dieClass page with
  | some .boreBar => d.ctxPageOff page
  | some .oxbow => d.oxHead
  | _ => d

/-- What an input of R41 brings on a die. -/
def Die.pageAct (d : Die) (page : Nat) (a : PageAct) : Die :=
  match a with
  | .none => d
  | .starts => d.pageStarts page
  | .stops act => d.pageStops page act
  | .discards => d.pageDiscards page
  | .cancels => d.pageCancels page
  | .ends => d.pageEnds page
  | .runs => d.pageRuns page

/-- A page input applied on a die: the state machine first, then the page's part. -/
def Die.pageInput (d : Die) (page : Nat) (r : PageAct × Part) : Die := ({ d with part := r.2 }).pageAct page r.1

/-- Whether a page holds no work in flight, so that its drain may complete (R41 and the owning chapters). -/
def Die.drainIdle (d : Die) (page : Nat) : Bool :=
  match dieClass page with
  | some .riffle => d.riffle.queue.isEmpty
  | some .eddy => d.eddy.queue.isEmpty
  | some .spring =>
    d.spring.closing.isEmpty && !(d.riffle.queue.any fun j => j.record) && !(d.eddy.queue.any fun j => j.record)
  | some .gauge => d.gaugeIdle
  | some .gaugeEng => !(d.gauge.probes.any fun w => engPage w.engine == page)
  | some .oxbow => !(d.oxbow.order.any fun s => d.oxState s == 2)
  | some .sluice => d.port.jobs.isEmpty
  | some .boreBar => d.ctxIdle page
  | some .meanderCore => (d.core (page - 0x100)).fifo.isEmpty
  | some .ident => !d.part.bit 0x41044 0
  | _ => true

/-- A page that entered FAULTED while ACTIVE or otherwise: Riffle's windows go to Eddy as FEATURES_ABSENT (R138). -/
def Die.pageFaults (d : Die) (page : Nat) (active : Bool) : Die :=
  let d := if active then d.pageLeaves page else d
  if page = 9 then d.rifAbsentAll.rifFlushAll else d

/-- A page fault on a die (R41) with the causing detail. -/
def Die.fault (d : Die) (page cause : Nat) : Die :=
  let was := d.part.pstate page
  let d := d.onPart fun p => p.pageFault page cause
  if was ≠ .faulted ∧ d.part.pstate page = .faulted then d.pageFaults page (was == .active) else d

/-- ENABLE of a die page (R41). -/
def Die.pageEnable (d : Die) (page data : Nat) : Die := d.pageInput page (d.part.enableInput page data)

/-- DRAIN of a die page (R41). -/
def Die.pageDrain (d : Die) (page : Nat) : Die := d.pageInput page (d.part.drainInput page)

/-- ENABLE_DONE of a die page (R41); GAUGE stays in ENABLING while its reference self-test runs (R186). -/
def Die.pageEnabled (d : Die) (page : Nat) : Die :=
  if page = 0x18 ∧ d.part.bit 0x18044 1 = true then d else d.pageInput page (d.part.enabledInput page)

/-- DRAIN_DONE of a die page (R41). -/
def Die.pageDrained (d : Die) (page : Nat) : Die :=
  if d.drainIdle page then d.pageInput page (d.part.drainedInput page) else d

/-- DRAIN_TIMEOUT of a die page (R42). -/
def Die.pageTimeout (d : Die) (page : Nat) : Die :=
  let was := d.part.pstate page
  let d := d.onPart fun p => p.drainTimeout page
  if was = .draining then d.pageFaults page false else d

/-- A PAGE_CTL write (R38, R41): ENABLE with DRAIN is refused, and so is either where an injection of CMD_ERR is armed (R47);
SOFT_CLEAR clears before what the same write records. -/
def Die.pageCtl (d : Die) (page : Nat) (w : W32) : Die :=
  if ctlRefused (d.part.armedAt page 6) w then d.onPart fun p => p.cmdErr page w.toNat
  else
    let d := if wbit w 2 then d.softClear page else d
    let d := if wbit w 3 then d.onPart fun p => p.modHdr page fun h => { h with lock := true } else d
    let d := if wbit w 0 then d.pageEnable page w.toNat else d
    if wbit w 1 then d.pageDrain page else d

end Sys2Proof.Machine
end

