-- ==== Sys2Proof/Machine/DieRegs.lean ====
section
/-! DEFINITION. Register accesses of a die: reads with shadows (R40, R58), the indirect ports (R49, R50), writes with the
refusals of R38, and what each register's write starts. -/

namespace Sys2Proof.Machine

/-! ### Shared by both parts -/

/-- The low word of a TIME register, whose read also latches the fraction word (R40, R58). -/
def timeLow (isAgg : Bool) : Nat := if isAgg then 0x4124 else 0x1040

/-- The shadow of an access source (R40). -/
def PageHdr.shadow (h : PageHdr) : Src → Shadow
  | .near => h.shadowNear
  | .remote => h.shadowRemote

/-- The shadow of an access source set. -/
def PageHdr.setShadow (h : PageHdr) (src : Src) (x : Shadow) : PageHdr :=
  match src with
  | .near => { h with shadowNear := x }
  | .remote => { h with shadowRemote := x }

/-- A read of a block register word (R40, R58), where `view` tells what each word reads as now. -/
def Part.shadowRead (p : Part) (src : Src) (addr : Nat) (view : Nat → W32) : W32 × Part :=
  let page := addr / 0x1000
  let sh := (p.hdr page).shadow src
  let wide := match specOf p.isAgg page (addr % 0x1000) with | some (r, _) => r.wide | none => .one
  if wide = .low then
    (view addr, p.modHdr page fun h => h.setShadow src
      { low := some addr, hi := view (addr + 4), frac := if addr = timeLow p.isAgg then view (addr + 8) else 0 })
  else if wide = .high then (if sh.low = some (addr - 4) then sh.hi else view addr, p)
  else if addr = timeLow p.isAgg + 8 ∧ sh.low = some (timeLow p.isAgg) then (sh.frac, p)
  else (view addr, p)

/-- A register word after a write (R6): RW and RWL fields take the write's bits, W1C bits written 1 fall. -/
def mergeWord (r : RegSpec) (old w : Nat) : Nat :=
  r.fields.foldl (fun x f =>
    match f.acc with
    | .rw => x - bitsOf x f.lo f.w * 2 ^ f.lo + bitsOf w f.lo f.w * 2 ^ f.lo
    | .rwl => x - bitsOf x f.lo f.w * 2 ^ f.lo + bitsOf w f.lo f.w * 2 ^ f.lo
    | .w1c => x - (bitsOf x f.lo f.w &&& bitsOf w f.lo f.w) * 2 ^ f.lo
    | _ => x) old

/-- What a register word holds in its RW and RWL fields: a write of it changes no field and commands nothing (R6). -/
def Part.kept (p : Part) (isAgg : Bool) (addr : Nat) : W32 :=
  match specOf isAgg (addr / 0x1000) (addr % 0x1000) with
  | none => 0
  | some (r, _) => BitVec.ofNat 32
      ((r.fields.filter fun f => f.acc == .rw || f.acc == .rwl).foldl (fun x f => x ||| p.fld addr f.lo f.w * 2 ^ f.lo) 0)

/-- Whether a write that targets a field is refused for it (R38): it changes the field while the field is static and
`fixed`, or locked, or to a value outside the field's range. -/
def fieldRefused (lock fixed : Bool) (old w : Nat) (f : FieldSpec) : Bool :=
  let o := bitsOf old f.lo f.w
  let n := bitsOf w f.lo f.w
  match f.acc with
  | .rw => o != n && ((f.static && fixed) || lock || decide (n < f.min ∨ f.max < n))
  | .rwl => o != n && decide (n < f.min ∨ f.max < n)
  | _ => false

/-- Whether DEADLINE_NS may take a value (R38, R87). -/
def deadlineOk (isAgg : Bool) (page n : Nat) : Bool :=
  match pageClass isAgg page with
  | none => false
  | some c => match deadlineRange c with
    | some (_, lo, hi) => decide (lo ≤ n ∧ n ≤ hi)
    | none => n == 0

/-- The ERR_STAT bits a page may report, as ERR_MASK implements them: [7:0] and [31:16] (R37). -/
def errBits : W32 := 0xFFFF00FF

/-- A write to a common-header word other than PAGE_CTL (R37, R38, R46, R47). -/
def Part.hdrWrite (p : Part) (page off : Nat) (w : W32) : Part :=
  let h := p.hdr page
  let refuse (p : Part) : Part := p.accessErr page (page * 0x1000 + off) w true
  if off = 0x0C then p.clearErr page w
  else if off = 0x10 then
    let m := w &&& errBits
    if m = h.errMask then p else if h.lock then refuse p else p.modHdr page fun h => { h with errMask := m }
  else if off = 0x14 then
    let a : Byte := BitVec.ofNat 8 w.toNat
    if a = 0 then p else if h.lock then refuse p else p.modHdr page fun h => { h with armed := h.armed ||| a }
  else if off = 0x1C then
    if w = h.deadline then p
    else if h.lock || !deadlineOk p.isAgg page w.toNat then refuse p
    else p.modHdr page fun h => { h with deadline := w }
  else p

/-- The key of the 64-bit word an indirect port addresses: memory and word. -/
def indKey (sel a : Nat) : Nat := sel * 536870912 + a / 8

/-- IND_ADDR or IND_CTL changed: a lower half held for another word is discarded (R49). -/
def Part.indMoved (p : Part) (page port : Nat) : Part :=
  match (p.hdr page).heldLower with
  | none => p
  | some (k, _) =>
    if k = indKey (p.fld (port + 8) 8 8) (p.num port) then p else p.modHdr page fun h => { h with heldLower := none }

/-- The port's address advanced after an access (R49). -/
def Part.indAdvance (p : Part) (page port : Nat) : Part :=
  if p.bit (port + 8) 0 then (p.setNum port (p.num port + 4)).indMoved page port else p

/-- IND_STAT of the last access (R49). -/
def Part.indStat (p : Part) (port v : Nat) : Part := p.setNum (port + 12) v

/-! ### The die's memories -/

/-- The memory identifier a CE or UE record of an indirect access carries (R53, R138, R163); elsewhere SELECT (log
entry 30). -/
def memIdent (page sel a : Nat) : Nat := if page = 0x10 then (if a < 0x400 then 1 else 0) else sel

/-- Whether a write to byte address `a` is refused because the region is in use (R50 and the owning chapters). -/
def Die.indInUse (d : Die) (page sel a : Nat) : Bool :=
  if page = 0x002 then d.part.active 2
  else if page = 0x040 then
    if sel < 2 then
      (if d.spring.cfg.ctl.toNat.testBit 7 then 1 else 0) == sel || d.part.fld 0x40040 7 1 == sel
    else if sel = 2 then d.part.fld 0x40040 8 2 == 1 || bitsOf d.spring.cfg.ctl.toNat 8 2 == 1
    else true
  else if page = 0x009 then d.rifInUse sel
  else if page = 0x010 then d.edInUse a || d.edInUse (a + 7)
  else if page = 0x018 then sel != 0 || d.part.active 0x18
  else true

/-- Bytes stored into a memory behind a port, from an address that is a multiple of 8 (R49). Bit 15 of a table entry of
SPRING is reserved (R104). -/
def Die.indStore (d : Die) (page sel a : Nat) (bs : List Byte) : Die :=
  if page = 0x002 then d.onMon fun m => m.load a bs
  else if page = 0x040 then
    (List.range (bs.length / 2)).foldl (fun d i =>
      let v := leNat ((bs.drop (2 * i)).take 2) % 32768
      let e := a / 2 + i
      d.onSpring fun s =>
        if sel = 0 then { s with aon0 := sput (128 * e) s.aon0 e v }
        else if sel = 1 then { s with aon1 := sput (128 * e) s.aon1 e v }
        else { s with rawSel := sput 0 s.rawSel e v }) d
  else if page = 0x009 then (d.setBank sel (Mem.wrBytes (d.riffle.bank sel) a bs)).rifTouch sel
  else if page = 0x010 then d.edWrite a bs
  else if page = 0x018 then d.onGauge fun g => { g with hist := Mem.wrBytes g.hist a bs }
  else d

/-- What an uncorrectable read through a port does beyond UE (R459): the baseline table, the Riffle bank in force, Spring's
tables, Gauge's history and Oxbow's fault their page (R138; log entry 31), a retained record is discarded (which one holds
the word is open, log entry 190) and a tap entry likewise, and a model in force is marked broken (R164). -/
def Die.indUe (d : Die) (page sel a : Nat) : Die :=
  if page = 0x002 ∨ page = 0x008 ∨ (page = 0x018 ∧ sel = 0) ∨ (page = 0x009 ∧ sel = d.rifBank) ∨ (page = 0x040 ∧ sel < 3) then d.fault page 0x04
  else if page = 0x040 then
    (d.onPart fun p => { p with fresh := p.fresh + 1 }).dropRetained
      ((Config.free32 d.part.fresh).toNat % max 1 d.spring.retention.length)
  else if page = 0x018 then d.tapLost (a / 3072)
  else if page = 0x010 then
    (List.range 4).foldl (fun d s => match d.edModel s with
      | none => d
      | some h =>
        if (a < 0x400 ∧ a / 128 = d.edForce s) ∨ (h.treeBase ≤ a ∧ a < h.treeBase + h.trees * h.slotBytes) then
          d.onPart fun p => (p.setBit (slotAddr s) 2 true).raise 0x10 20
            { unit := s, opCode := 3, detail := leBytes 1 s ++ leBytes 4 h.id ++ leBytes 4 (a / 8) }
        else d) d |>.edFlushAll
  else d

/-- OP_CODE of a record an indirect-port access causes: 3 on EDDY (R165) and MEANDER (R265). -/
def portOp (page : Nat) : Nat := if page = 0x10 ∨ page = 0x140 then 3 else 0

/-- A read of IND_DATA (R49): the addressed word after correction; `ecc` is the check result of the word. -/
def Die.indRead (d : Die) (page port : Nat) (ecc : Ecc) : W32 × Die :=
  let sel := d.part.fld (port + 8) 8 8
  let a := d.part.num port / 4 * 4
  match indSize page sel with
  | none => (0, d.onPart fun p => p.indStat port 4)
  | some n =>
    if n ≤ a then (0, d.onPart fun p => p.indStat port 4)
    else
      let w := d.indWord page sel a
      let d := d.onPart fun p => { p with fresh := p.fresh + 1 }
      let (e, p) := d.part.eccRead page (a / 8) (memIdent page sel a) ecc (portOp page)
      let d := { d with part := p }
      let (w, st, d) := match e with
        | .ok => (w, 0, d)
        | .ce _ => (w, 1, d)
        | .ue => ((0 : W32), 2, d.indUe page sel a)
      (w, d.onPart fun p => (p.indStat port st).indAdvance page port)

/-- A write of IND_DATA (R49, R50). -/
def Die.indWrite (d : Die) (page port : Nat) (w : W32) (ecc : Ecc) : Die :=
  let sel := d.part.fld (port + 8) 8 8
  let a := d.part.num port / 4 * 4
  if (d.part.hdr page).lock then d.onPart fun p => (p.indStat port 8).indAdvance page port
  else match indSize page sel with
  | none => d.onPart fun p => p.indStat port 4
  | some n =>
    if n ≤ a then d.onPart fun p => p.indStat port 4
    else if d.indInUse page sel (a / 8 * 8) then d.onPart fun p => (p.indStat port 8).indAdvance page port
    else if a % 8 = 0 then
      d.onPart fun p => ((p.modHdr page fun h => { h with heldLower := some (indKey sel a, w) }).indStat port 0).indAdvance
        page port
    else
      let done (d : Die) (lo : W32) (st : Nat) : Die :=
        (d.indStore page sel (a - 4) (leBytes 4 lo.toNat ++ leBytes 4 w.toNat)).onPart fun p =>
          ((p.modHdr page fun h => { h with heldLower := none }).indStat port st).indAdvance page port
      match (d.part.hdr page).heldLower with
      | some (_, lo) => done d lo 0
      | none =>
        let (e, p) := d.part.eccRead page (a / 8) (memIdent page sel a) ecc (portOp page)
        let d := { d with part := p }
        match e with
        | .ok => done d (d.indWord page sel (a - 4)) 0
        | .ce _ => done d (d.indWord page sel (a - 4)) 1
        | .ue => (d.indUe page sel a).onPart fun p => (p.indStat port 2).indAdvance page port

/-! ### Reads and writes -/

/-- A register read of a die (R34, R40, R49): the word, and the state after it. -/
def Die.regRead (d : Die) (src : Src) (addr : Nat) (ecc : Ecc) : W32 × Die :=
  let page := addr / 0x1000
  let off := addr % 0x1000 / 4 * 4
  if (dieClass page).isNone then (0, d.onPart fun p => p.accessErr 0 addr 0 false)
  else if !assigned false page off || d.part.accessFault page off false then
    (0, d.onPart fun p => p.accessErr page addr 0 false)
  else if off < 0x40 then (d.part.hdrWord page off, d)
  else match indPort page with
    | some port =>
      if page * 0x1000 + off = port + 4 then d.indRead page port ecc
      else
        let (w, p) := d.part.shadowRead src (page * 0x1000 + off) d.blockWord
        (w, { d with part := p })
    | none =>
      let (w, p) := d.part.shadowRead src (page * 0x1000 + off) d.blockWord
      (w, { d with part := p })

/-- Refusals of a die register write that its page's chapter adds to R38. `w` is the write, `n` the word it would leave. -/
def Die.writeRefused (d : Die) (addr old n : Nat) (w : W32) : Bool :=
  let page := addr / 0x1000
  let off := addr % 0x1000
  match dieClass page with
  | some .headwater => (addr == 0x109C || addr == 0x10A8 || addr == 0x10AC) && d.switchPending
  | some .spring =>
    (addr == 0x40040 && old != n &&
      (bitsOf n 8 2 == 3 || rawTooFast (bitsOf n 8 2) (d.part.fld 0x40050 0 13) (d.part.num 0x1098))) ||
    (addr == 0x40050 && old != n && rawTooFast (d.part.fld 0x40040 8 2) (bitsOf n 0 13) (d.part.num 0x1098))
  | some .gauge =>
    if 0x18050 ≤ addr ∧ addr ≤ 0x1805C then
      let iv (i : Nat) : Nat := if addr = 0x18050 + 4 * i then n else d.part.num (0x18050 + 4 * i)
      old != n && !(decide (iv 1 < iv 0) && decide (iv 2 < iv 1) && decide (iv 3 < iv 2))
    else false
  | some .oxbow => addr == 0x8070 && decide (640 ≤ bitsOf n 16 10 ∧ bitsOf n 16 10 ≠ 0x3FF)
  | some .boreBar => match slotOff .boreBar off with
    | some (0x10, _) => bitsOf w.toNat 0 16 == 0
    | _ => false
  | some .meander =>
    (addr == 0x140040 && old != n && n.testBit 2 && bitsOf n 0 2 == 0) ||
    (addr == 0x14004C && old != n && d.bufState != 0)
  | some .sluice => decide (0x30200 ≤ addr ∧ addr < 0x30300) && d.part.bit 0x3012C 1
  | _ => false

/-- A write's bits that have no effect where the integrator tied their subject away (R196, R421): `none` when nothing of
the write acts. -/
def Die.maskWrite (d : Die) (addr : Nat) (w : W32) : Option W32 :=
  let page := addr / 0x1000
  match dieClass page with
  | some .gauge => if addr = 0x18040 ∧ !d.ties.opTap then some (withBits w 2 1 0) else some w
  | some .gaugeEng => match slotOff .gaugeEng (addr % 0x1000) with
    | some (0, s) =>
      if !d.engPresent ((page - 0x020) * 64 + s) then none
      else if !d.ties.opTap then some (withBits w 2 1 0) else some w
    | _ => some w
  | _ => some w

/-- Whether static fields of a word are fixed now: outside OFF, or for a barrier context while its EN is 1 (R38, R241). -/
def Die.staticFixed (d : Die) (addr : Nat) : Bool :=
  let page := addr / 0x1000
  match dieClass page with
  | some .boreBar => d.part.bit (addr / 0x20 * 0x20) 0
  | _ => d.part.pstate page != .off

/-- BUF_CMD of MEANDER (R253–R255), in bit order. -/
def Die.bufCmd (d : Die) (w : W32) : Die :=
  let d := if wbit w 0 then d.bufArm else d
  let d := if wbit w 1 then d.bufDisarm else d
  let d := if wbit w 2 then d.bufTrigger 0 0 0 else d
  if wbit w 3 then d.bufUpload else d

/-- What a register write of a die starts once its fields are stored: command bits and the follow-up of changed fields. -/
def Die.writeActs (d : Die) (addr old : Nat) (w : W32) : Die :=
  let page := addr / 0x1000
  let off := addr % 0x1000
  let chg (i : Nat) : Bool := old.testBit i != d.part.bit addr i
  match dieClass page with
  | some .global => if off = 0x44 then d.gdidSet w else d
  | some .headwater =>
    if off = 0x4C then
      let d := if chg 0 then d.servoWrite (d.part.bit addr 0) else d
      let d := if wbit w 1 then d.restepArm true else d
      if wbit w 2 then d.restepArm false else d
    else if off = 0x60 then d.trimFromSet
    else if off = 0xB8 then (if wbit w 0 then d.switchArm w else d)
    else d
  | some .selftime =>
    if off = 0x40 then (if wbit w 2 then d.baseClear else d)
    else if 0x60 ≤ off ∧ off < 0x74 then
      d.onIdent fun i => { i with periodSet := sput false i.periodSet ((off - 0x60) / 4) true }
    else d
  | some .rill => match slotOff .rill off with
    | some (0, _) => if wbit w 0 then d.onPart fun p => p.setBit addr 3 true else d
    | _ => d
  | some .ident => if off = 0x40 then d.identCtl w else d
  | some .riffle =>
    if off = 0x40 then
      if wbit w 0 && wbit w 1 then d.onPart fun p => p.accessErr 9 addr w true
      else if wbit w 1 then d.rifValidate else if wbit w 0 then d.rifArm else d
    else d
  | some .eddy =>
    if off = 0x40 then
      if wbit w 0 then d.edArm w else if wbit w 1 then d.edValidate (bitsOf w.toNat 2 2) w else d
    else d
  | some .gauge =>
    if off = 0x40 then
      let d := if wbit w 4 then d.refStart else d
      if wbit w 5 then d.replayGo w else d
    else if off = 0x8C then d.selftestReq w
    else d
  | some .gaugeEng => match slotOff .gaugeEng off with
    | some (0, s) => if wbit w 6 then d.levelWrite ((page - 0x020) * 64 + s) w else d
    | _ => d
  | some .oxbow =>
    if off = 0x40 then
      if wbit w 3 then d.dispute (d.part.fld 0x8070 0 16) (d.part.fld 0x8070 16 10) 2
      else if wbit w 4 then d.disputeClr w else d
    else if off = 0x6C then d.verdict w
    else d
  | some .bore =>
    if off = 0x40 then
      let d := if wbit w 1 then d.copyReset else d
      if wbit w 0 then d.launch w else d
    else d
  | some .boreBar => match slotOff .boreBar off with
    | some (0, s) =>
      let c := (page - 4) * 64 + s
      let d := if chg 0 then d.ctxEnable c (d.part.bit addr 0) else d
      if wbit w 7 then d.ctxReset c else d
    | some (0x10, s) => d.ctxArrive ((page - 4) * 64 + s) (bitsOf w.toNat 16 1) (bitsOf w.toNat 0 16) ⟨1, 0⟩
    | _ => d
  | some .meander => if off = 0x40 then d.sinkCheck else if off = 0x44 then d.bufCmd w else d
  | some .meanderCore =>
    let k := page - 0x100
    if off = 0x40 then
      let d := if chg 0 && !d.part.bit addr 0 then d.traceStop k else d
      let d := if wbit w 4 then d.haltWrite k else d
      let d := if wbit w 5 then d.resumeWrite k else d
      if wbit w 6 then d.syncNow k else d
    else match compIndex off with
      | some i =>
        if d.part.active page then d.compSend k i else d.onPart fun p => p.setBit (coreAddr k + 0x44) 10 false
      | none => d
  | some .sluice => if off = 0x12C ∧ wbit w 0 = true then d.onLane fun p s => gclArm p s none else d
  | some .trib =>
    if off = 0x40 ∧ wbit w 0 = true then d.laneAct fun p s => linkRestart p s none 5 else d
  | _ => d

/-- Command bits of one write that exclude each other, refused with CMD_ERR (R78, R213). -/
def Die.cmdConflict (addr : Nat) (w : W32) : Bool :=
  (addr == 0x104C && wbit w 1 && wbit w 2) || (addr == 0x8040 && wbit w 3 && wbit w 4)

/-- A write to a block register word of a die (R38). -/
def Die.blockWrite (d : Die) (addr : Nat) (w : W32) : Die :=
  let page := addr / 0x1000
  match specOf false page (addr % 0x1000) with
  | none => d
  | some (r, _) => match d.maskWrite addr w with
    | none => d
    | some w =>
      let old := (d.part.rd addr).toNat
      let n := mergeWord r old w.toNat
      let lock := (d.part.hdr page).lock && !(addr == 0x8068 || addr == 0x8070)
      if r.fields.any (fieldRefused lock (d.staticFixed addr) old w.toNat) || d.writeRefused addr old n w then
        d.onPart fun p => p.accessErr page addr w true
      else if Die.cmdConflict addr w then d.onPart fun p => p.cmdErrOp page w.toNat (if page = 8 then 3 else 0)
      else
        let d := if addr = 0x18048 ∨ addr = 0x18088 then d.settleCredit else d
        let d := if old = n then d else d.onPart fun p => p.setNum addr n
        d.writeActs addr old w

/-- A register write of a die (R34, R38, R50). -/
def Die.regWrite (d : Die) (addr : Nat) (w : W32) (ecc : Ecc) : Die :=
  let page := addr / 0x1000
  let off := addr % 0x1000 / 4 * 4
  let at_ := page * 0x1000 + off
  if (dieClass page).isNone then d.onPart fun p => p.accessErr 0 addr w true
  else if !assigned false page off || d.part.accessFault page off true then d.onPart fun p => p.accessErr page addr w true
  else if off = 4 then d.pageCtl page w
  else if off < 0x40 then
    let d' := d.onPart fun p => p.hdrWrite page off w
    if at_ = 0x1001C ∧ (d'.part.hdr 0x10).deadline ≠ (d.part.hdr 0x10).deadline then
      { d' with eddy := { d'.eddy with oldDeadline := none } }
    else d'
  else match indPort page with
    | some port =>
      if at_ = port then d.onPart fun p => (p.wr at_ (w &&& 0xFFFFFFFC)).indMoved page port
      else if at_ = port + 4 then d.indWrite page port w ecc
      else if at_ = port + 8 then d.onPart fun p => (p.wr at_ (w &&& 0x0000FF01)).indMoved page port
      else d.blockWrite at_ w
    | none => d.blockWrite at_ w

end Sys2Proof.Machine
end

