-- ==== Sys2Proof/Machine/DieCells.lean ====
section
/-! DEFINITION. Cells at a die: reception and its checks (R271, R272), register and bulk requests (R274, R275), sending
(R279), and the link (R276). -/

namespace Sys2Proof.Machine

/-- CELL_REFUSED at a die. -/
def Die.refuseCell (d : Die) (h : CellHdr) (typ cause : Nat) : Die :=
  d.onPart fun p => cellRefused p none typ h.queue h.len cause

/-- A downstream cell received (R271, R272): counted, its sequence taken, and refused for its queue, TYPE, LENGTH or SEG;
`len` is the LENGTH a fixed payload has (log entry 35). In TRAINING it is counted and goes no further (log entry 202). The
answer tells whether the cell stands. -/
def Die.cellIn (d : Die) (h : CellHdr) (typ : Nat) (len : Option Nat) : Bool × Die :=
  if !d.part.linkUp none then (false, if d.part.fld 0x31044 0 2 = 0 then d else d.onPart fun p => rxCount p none)
  else
    let d := d.onPart fun p => rxCount p none
    if 10 < h.queue then (false, d.refuseCell h typ 2)
    else
      let d := d.onLane fun p s => rxCseq p s none h.queue h.cseq
      match h.badType with
      | some t => (false, d.refuseCell h t 1)
      | none =>
        if 2048 < h.len ∨ (match len with | some n => decide (h.len ≠ n) | none => false) = true then
          (false, d.refuseCell h typ 3)
        else if !h.first || !h.last then (false, d.refuseCell h typ 6)
        else (true, d)

/-- A cell that stands acts. -/
def Die.received (r : Bool × Die) (f : Die → Die) : Die := if r.1 then f r.2 else r.2

/-- A cell that stands acts, or is refused for a payload field out of its range (R271, R289). -/
def Die.receivedOk (r : Bool × Die) (h : CellHdr) (typ : Nat) (ok : Bool) (f : Die → Die) : Die :=
  Die.received r fun d => if ok then f d else d.refuseCell h typ 4

/-! ### Register and bulk requests -/

/-- Whether an address is the IND_DATA word of a port: its read or write takes a check result. -/
def isIndData (addr : Nat) : Bool := indPort (addr / 0x1000) == some (addr - 4) && decide (4 ≤ addr)

/-- The reads of a REG_REQ in word order (R274): the data, and the die after them. -/
def Die.readWords (d : Die) : Nat → Nat → List Ecc → List W32 × Die
  | 0, _, _ => ([], d)
  | n + 1, a, es =>
    let ind := isIndData a
    let (w, d') := d.regRead .remote a (if ind then es.headD .ok else .ok)
    let (ws, d'') := d'.readWords n (a + 4) (if ind then es.tail else es)
    (w :: ws, d'')

/-- The writes of a REG_REQ in word order (R274). -/
def Die.writeWords (d : Die) : List W32 → Nat → List Ecc → Die
  | [], _, _ => d
  | w :: ws, a, es =>
    let ind := isIndData a
    (d.regWrite a w (if ind then es.headD .ok else .ok)).writeWords ws (a + 4) (if ind then es.tail else es)

/-- Whether a REG_REQ is well formed (table Cell types). -/
def regReqOk (op nwords addr dataWords len : Nat) : Bool :=
  decide (1 ≤ nwords ∧ nwords ≤ 64 ∧ addr % 4 = 0) &&
    ((op == 1 && dataWords == 0 && len == 8) || (op == 2 && dataWords == nwords && len == 8 + 4 * nwords))

/-- Whether a BULK cell is well formed (table Cell types). -/
def bulkOk (target offset bytes len : Nat) : Bool :=
  decide (1 ≤ target ∧ target ≤ 7 ∧ offset % 8 = 0 ∧ 8 ≤ bytes ∧ bytes ≤ 2040 ∧ bytes % 8 = 0 ∧ len = 8 + bytes)

/-- The memory a BULK target names (table Bulk targets): its page and SELECT. -/
def bulkTarget : Nat → Nat × Nat
  | 1 => (0x009, 0) | 2 => (0x009, 1) | 3 => (0x010, 0) | 4 => (0x002, 0)
  | 5 => (0x040, 0) | 6 => (0x040, 1) | _ => (0x040, 2)

/-- A BULK write (R275): STATUS 0 written, 1 IN_USE, 2 RANGE, 3 malformed; a refused cell writes nothing. Memory in use sets
IND_STAT.IN_USE too (R50, R133, R161). -/
def Die.bulkWrite (d : Die) (target offset : Nat) (data : List Byte) (len : Nat) : Nat × Die :=
  if !bulkOk target offset data.length len then (3, d)
  else
    let (page, sel) := bulkTarget target
    if (match indSize page sel with | some n => n | none => 0) < offset + data.length then (2, d)
    else if (d.part.hdr page).lock ||
        ((List.range (data.length / 8)).any fun i => d.indInUse page sel (offset + 8 * i)) then
      (1, match indPort page with | some port => d.onPart fun p => p.indStat port 8 | none => d)
    else (0, d.indStore page sel offset data)

/-- Payload bytes of the answer to a REG_REQ or BULK cell. -/
def Cell.respLen (c : Cell) : Nat :=
  match c.body with
  | .regReq _ op n addr data => if regReqOk op n addr data.length c.len && op == 1 then 4 + 4 * n else 4
  | _ => 8

/-- An upstream answer placed in the queue of its kind (R280). -/
def Die.respond (d : Die) (typ len : Nat) (b : Body) : Die :=
  let q := d.part.qOf .response
  let c : Cell := { typ := typ, len := len, body := b, enq := d.part.t }
  { d with port := d.port.setQueue q (d.port.queue q ++ [c]) }

/-- A REG_REQ or BULK cell performed and answered (R274, R275). A malformed request reports NWORDS 0 (log entry 36). -/
def Die.perform (d : Die) (c : Cell) (es : List Ecc) : Die :=
  match c.body with
  | .regReq id op n addr data =>
    if !regReqOk op n addr data.length c.len then d.respond 9 4 (.regResp id 2 0 [])
    else
      let d := d.onPart fun p => { p with accessed := false }
      let (ws, d) := if op = 1 then d.readWords n addr es else ([], d.writeWords data addr es)
      d.respond 9 (4 + 4 * ws.length) (.regResp id (if d.part.accessed then 1 else 0) n ws)
  | .bulk id target _ offset data =>
    let (st, d) := d.bulkWrite target offset data c.len
    d.respond 11 8 (.bulkAck id st offset)
  | _ => d

/-- Whether the answer to a cell has room in its queue (R274). -/
def Die.respRoom (d : Die) (c : Cell) : Bool := d.port.room (d.part.qOf .response) (cellBytes c.respLen)

/-- A REG_REQ or BULK cell taken in (R274): performed when its answer has room, kept in order behind others otherwise,
and discarded with cause 5 when its receive store is full. -/
def Die.takeReq (d : Die) (h : CellHdr) (c : Cell) (es : List Ecc) : Die :=
  if d.port.waiting.isEmpty && d.respRoom c then d.perform c es
  else if 65536 < ((d.port.waiting.filter fun x => x.typ == c.typ).map Cell.bytes).sum + c.bytes then
    d.refuseCell h c.typ 5
  else { d with port := { d.port with waiting := d.port.waiting ++ [c] } }

/-- The first waiting request performed once its answer has room (R274). -/
def Die.performWaiting (d : Die) (es : List Ecc) : Die :=
  match d.port.waiting with
  | [] => d
  | c :: cs => if d.respRoom c then ({ d with port := { d.port with waiting := cs } }).perform c es else d

/-! ### Sending -/

/-- A cell whose word in its queue was not correctable (R459): a step record ends its transit stage undelivered, and a record
is counted as its producer's loss. -/
def Die.cellUe (d : Die) (c : Cell) : Die :=
  (match c.body with
    | .part rc _ => if rc.kind = RecKind.step then d.onPart fun p => p.stageDrop 0x31 0 0 else d
    | _ => d).cellLost (some c)

/-- CELL_SEND of a die (R279): a time cell's stamp and residence complete the exchange's upstream half (R273). -/
def Die.cellSend (d : Die) (resid : Nat) (ecc : Ecc) : Die :=
  let n := d.part.out.length
  let (lost, p, s) := sendCell d.part d.port none resid ecc
  let d := { d with part := p, port := s }
  match lost with
  | some c => d.cellUe c
  | none => match d.part.out.drop n with
    | [.cell _ c r _] => match c.body with
      | .timeDelay e t3 => d.timeDelaySent e t3 r
      | _ => d
    | _ => d

end Sys2Proof.Machine
end

