-- ==== Sys2Proof/Machine/DiePower.lean ====
section
/-! DEFINITION. Power and readiness of a die unit (R391–R393, R413, R414), and what a die shows after each command: its
queued health records (R44, R278), the cells whose last byte has crossed (R286) and its interrupt outputs (R425). -/

namespace Sys2Proof.Machine

/-- The pages ACTIVE at ready (R393, table Die-unit pages at ready). -/
def readyPages : List Nat :=
  [0x000, 0x001, 0x002, 0x003, 0x009, 0x010, 0x030, 0x031, 0x040, 0x041] ++ (List.range 128).map (0x080 + ·)

/-- The interrupt outputs of a die (R425); all 0 while VQ_READY is 0 (R414). -/
def Die.irqNow (d : Die) : BitVec 4 :=
  if !d.ready then 0
  else
    let p := d.part
    BitVec.ofNat 4 (b2n p.anySummary + 2 * b2n (p.num 0x309C &&& p.num 0x30A0 != 0) +
      4 * b2n (p.num 0x14007C &&& p.num 0x140080 != 0) + 8 * b2n (p.num 0x50 &&& p.num 0x54 != 0))

/-- What a die does at the end of every command: a window schedule due inside the open window is in force (R69), the health
records emitted are queued (R44), and the interrupt outputs follow their conditions (R425). -/
def Die.finish (d : Die) : Die :=
  let d := d.switchDue
  let (p, s) := laneSettle d.part d.port none
  let (p, s) := flushHealth (2 * d.part.emitted.length + 8) p s
  let d := { d with part := p, port := s }
  { d with irq := d.irqNow }

/-- DIE_POWER_UP (R391, R54): every register at its reset value; SLOT_ID is sampled (R394, R430), and the integrator's ties
(chapter 18) stand from here on. -/
def Die.powerUp (d : Die) (slot : Fin 16) (ties : Ties) : Die := if d.powered then d else (Die.reset slot ties).finish

/-- DIE_POWER_LOSS (R413, R414): all state is lost, VQ_READY falls and the outputs are clamped. -/
def Die.powerLoss (d : Die) : Die := ({ Die.reset d.part.slot d.ties with powered := false }).finish

/-- DIE_READY (R391–R393): `refAt` is when the reference became present, in ns after VQ_VDD valid; without one within
950 µs the die is ready on its backup oscillator with REF_LOSS. The counter starts from 0, with window 0 open (table
Die-unit pages at ready). -/
def Die.becomeReady (d : Die) (refAt : Option Nat) : Die :=
  if d.ready then d
  else
    let lost := match refAt with
      | some r => decide (950000 < r)
      | none => true
    let d := { d with ready := true }
    let d := d.onPart fun p =>
      readyPages.foldl (fun p g => p.modHdr g fun h => { h with state := .active }) { p with time := 0 }
    let d := if lost then d.refLoss else d
    let d := d.hwActive.onLane fun p s => linkEnable p s none
    (d.openWindow {}).identBegin [0, 1, 2, 3, 4, 5, 6, 7, 8]

/-- A register-port access before ready (R392): acknowledged, a read returning 0, and recorded in EARLY_ACCESS. -/
def Die.early (d : Die) : Die :=
  d.onPart fun p => { p.setBit 0x48 9 true with out := p.out ++ [Out.regAck 0] }

/-- An access through the register port: before ready it has no effect (R392). -/
def Die.access (d : Die) (f : Die → Die) : Die := if d.ready then f d else d.early

/-- A register read whose value is answered through the register port (R416) or kept for a REG_RESP. -/
def Die.readPort (d : Die) (src : Src) (addr : Nat) (ecc : Ecc) : Die :=
  d.access fun d =>
    let (w, d) := d.regRead src addr ecc
    d.onPart fun p => { p with out := p.out ++ [Out.regAck w] }

end Sys2Proof.Machine
end

