-- ==== Sys2Proof/Machine/AggBase.lean ====
section
/-! DEFINITION. What every part of the aggregator uses: its part and lanes, the flight recorder (R315, R316), the record
rings of the host (R377), MSI-X vectors (R361), management frames out (R311, R378, R379), the routing and fence tables
(R383, R385), and health records on their way (R340, R456). -/

namespace Sys2Proof.Machine

/-- The aggregator with its part changed. -/
def Agg.onPart (g : Agg) (f : Part → Part) : Agg := { g with part := f g.part }
/-- The aggregator with its Confluence state changed. -/
def Agg.onConf (g : Agg) (f : ConfState → ConfState) : Agg := { g with conf := f g.conf }
/-- The aggregator with its Millrace state changed. -/
def Agg.onMill (g : Agg) (f : MillState → MillState) : Agg := { g with mill := f g.mill }
/-- The aggregator with its Levee state changed. -/
def Agg.onLev (g : Agg) (f : LeveeState → LeveeState) : Agg := { g with lev := f g.lev }
/-- The aggregator with its Estuary state changed. -/
def Agg.onEst (g : Agg) (f : EstState → EstState) : Agg := { g with est := f g.est }
/-- The aggregator with its chip state changed. -/
def Agg.onChip (g : Agg) (f : ChipState → ChipState) : Agg := { g with chip := f g.chip }
/-- The aggregator's time in whole ns. -/
def Agg.now (g : Agg) : Nat := g.part.now
/-- The lane end of a port. -/
def Agg.port (g : Agg) (l : Nat) : Port := sget {} g.ports l
/-- A lane end set. -/
def Agg.setPort (g : Agg) (l : Nat) (s : Port) : Agg := { g with ports := sput {} g.ports l s }
/-- The aggregator's part and one lane end changed together. -/
def Agg.onLane (g : Agg) (l : Nat) (f : Part → Port → Part × Port) : Agg :=
  let (p, s) := f g.part (g.port l)
  { g with part := p, ports := sput {} g.ports l s }

/-- NODE_ID (R317). -/
def Agg.nodeId (g : Agg) : Nat := g.part.num 0x1048
/-- NODE_VALID (R404). -/
def Agg.nodeValid (g : Agg) : Bool := g.part.bit 0x40 4
/-- The interior role (R16, ROLE_SEL). -/
def Agg.interior (g : Agg) : Bool := g.part.bit 0x40 8
/-- The root: PARENT_ID names no node (R299). -/
def Agg.isRoot (g : Agg) : Bool := g.part.num 0x104C == 0xFFFFFFFF
/-- The DMA gate is open (R337). -/
def Agg.gateOpen (g : Agg) : Bool := g.part.bit 0x2048 2
/-- Window rings frozen (R316). -/
def Agg.frozen (g : Agg) : Bool := g.part.bit 0x1044 2
/-- The base of a TRIB_PORT page. -/
def tribAddr (l : Nat) : Nat := (0x10 + l) * 0x1000
/-- A lane in UP (R276). -/
def Agg.laneUp (g : Agg) (l : Nat) : Bool := g.part.linkUp (some l)
/-- PEER_ID of a lane. -/
def Agg.peer (g : Agg) (l : Nat) : Nat := g.part.num (tribAddr l + 0x48)
/-- DIE_STATE of a port (R317). -/
def dieState (l : Nat) : Nat := 0x1100 + 4 * l
/-- Something presented by the aggregator. -/
def Agg.show (g : Agg) (o : Out) : Agg := g.onPart fun p => { p with out := p.out ++ [o] }

/-! ### The flight recorder -/

/-- Bytes of a recorder ring: window rings 0–15, event log 16, capture 17 (R315). -/
def recBytes (r : Nat) : Nat := if r < 16 then 3758096384 else if r = 16 then 2147483648 else 4294967296

/-- Bytes a stored record takes with its entry header (R315). -/
def RecEntry.size (e : RecEntry) : Nat := 16 + e.bytes.length

/-- The 16-byte entry header (R315). -/
def RecEntry.header (e : RecEntry) : List Byte :=
  leBytes 8 e.time ++ leBytes 1 e.port ++ leBytes 1 e.kind ++ leBytes 2 e.bytes.length ++ [0, 0, 0, 0]

/-- The oldest records dropped until the rest fits (R315): the time of the last one dropped, plus one, and the rest. -/
def recTrim (limit : Nat) : List RecEntry → Nat → Nat × List RecEntry
  | [], w => (w, [])
  | e :: es, w => if ((e :: es).map RecEntry.size).sum ≤ limit then (w, e :: es) else recTrim limit es (e.time + 1)

/-- A record stored (R315). Nothing is stored while the DRAM page is not ACTIVE (R450) or CONFLUENCE is FAULTED (R317), and no
window record while the rings are frozen (R316): it is counted in RECORDER_DROP_COUNT. -/
def Agg.recStore (g : Agg) (r : Nat) (e : RecEntry) : Agg :=
  if !g.part.active 0x20 || g.part.pstate 1 == .faulted || (decide (r < 16) && g.frozen) then g.onPart fun p => p.inc 0x10F0
  else
    let (w, es) := recTrim (recBytes r) (sget [] g.conf.rings r ++ [e]) 0
    g.onConf fun c => { c with
      rings := sput [] c.rings r es
      overwritten := if r = 16 then max c.overwritten w else c.overwritten }

/-! ### Interrupts and record rings -/

/-- The mask bit of an MSI-X vector, bit 0 of the last word of its table entry (R361, log entry 129). -/
def Agg.vecMasked (g : Agg) (v : Nat) : Bool := (Mem.rd8 g.est.msix (16 * v + 12)).toNat.testBit 0

/-- An MSI-X vector's condition has risen (R361): it fires while its mask bit is clear and the gate is open, else it stays
pending. -/
def Agg.vector (g : Agg) (v : Nat) : Agg :=
  if g.gateOpen && !g.vecMasked v then g.show (.msix v) else g.onEst fun e => { e with pba := sput false e.pba v true }

/-- Padding to 8 bytes. -/
def pad8 (n : Nat) : Nat := (n + 7) / 8 * 8

/-- A record for record ring `r` of the host (R377): written with its entry header where it fits before REC_HEAD, never
wrapped, with REC_TAIL and the vector after it; dropped and reported otherwise. Nothing is sent while the gate is closed
(R337) or the ESTUARY page takes no work (R41, log entry 209). The answer tells whether it was written. -/
def Agg.recRing (g : Agg) (r : Nat) (e : RecEntry) : Bool × Agg :=
  let b := 0x4080 + 0x20 * r
  let p := g.part
  if !g.gateOpen || !p.active 4 || !p.bit (b + 0x10) 6 then (false, g)
  else
    let size := 2 ^ p.fld (b + 0x10) 0 6
    let tail := p.num (b + 0x18)
    let pos := tail % size
    let n := pad8 e.size
    let gap := if size < pos + n then size - pos else 0
    if size < (tail + 4294967296 - p.num (b + 0x14)) % 4294967296 + gap + n then
      let k := sget 0 g.est.recDropSince r + 1
      let told := !wbit (p.hdr 4).errStat 18 && !wbit (p.hdr 4).errMask 18
      let g := g.onPart fun p => ((p.inc (b + 0x1C)).setBit 0x4074 1 true).raise 4 18
        { detail := leBytes 1 r ++ leBytes 4 k }
      (false, g.onEst fun x => { x with recDropSince := sput 0 x.recDropSince r (if told then 0 else k) })
    else
      let base := p.num64 b
      let g := if gap = 0 then g else g.show (.hostWrite (base + pos)
        (padTo gap ({ e with kind := 0xFF, bytes := [] } : RecEntry).header))
      let tail' := (tail + gap + n) % 4294967296
      let g := g.show (.hostWrite (base + (pos + gap) % size) (padTo n (e.header ++ e.bytes)))
      let g := g.onPart fun p => p.setNum (b + 0x18) tail'
      (true, (g.show (.hostWrite (p.num64 (b + 8)) (leBytes 4 tail'))).vector (72 + r))

/-- A record of the aggregator's own (FLAGS.AGG_SOURCE): the event log always, record ring 0 while the gate is open
(R340, R377). -/
def Agg.ownRecord (g : Agg) (e : RecEntry) : Bool × Agg := (g.recStore 16 e).recRing 0 e

/-- Every health record emitted so far stored and offered to the host; one offered may raise REC_DROP. -/
def Agg.flush : Nat → Agg → Agg
  | 0, g => g
  | f + 1, g =>
    match g.part.emitted with
    | [] => g
    | (_, r) :: es =>
      let g := g.onPart fun p => { p with emitted := es }
      Agg.flush f (g.ownRecord { time := g.now, port := 0xFF, kind := 3, bytes := r.bytes, gdid := r.gdid }).2

/-! ### A freeze -/

/-- A freeze cause (R316): bit `c` of FREEZE_MASK, or 0xFF for the register. The first starts a freeze; the rings stop
FREEZE_POST_MS later. A cause during a freeze is recorded and does not extend it. -/
def Agg.freezeCause (g : Agg) (c port : Nat) : Agg :=
  if c ≠ 0xFF ∧ !g.part.bit 0x10A0 c then g
  else match g.conf.freeze with
  | none => g.onConf fun x => { x with freeze := some ⟨g.now, c, port, false⟩ }
  | some _ => g.onPart fun p => p.raise 1 29 { unit := port, detail := leBytes 1 c ++ leBytes 1 port ++ [0] }

/-- The rings stop (R316). -/
def Agg.freezeNow (g : Agg) : Agg :=
  match g.conf.freeze with
  | none => g
  | some z =>
    if z.frozen then g
    else
      let g := g.onConf fun x => { x with freeze := some { z with frozen := true } }
      g.onPart fun p => (p.setBit 0x1044 2 true).raise 1 29
        { unit := z.port, detail := leBytes 1 z.cause ++ leBytes 1 z.port ++ [0] }

/-- A freeze ends (R316). -/
def Agg.freezeEnd (g : Agg) : Agg :=
  (g.onConf fun x => { x with freeze := none }).onPart fun p => p.setBit 0x1044 2 false

/-! ### Management frames -/

/-- An Ethernet port carries traffic: its page is ACTIVE and its link up (R389). -/
def Agg.ethUp (g : Agg) (i : Nat) : Bool := g.part.active (8 + i) && g.part.bit ((8 + i) * 0x1000 + 0x44) 0

/-- KIND of a tree frame (tables Relay payload and Tree frames, R374, R384). -/
def TreeBody.kind : TreeBody → Nat
  | .event _ _ => 1 | .bcast _ _ => 2 | .hopAck _ _ => 3 | .ready _ _ _ _ _ _ => 4 | .sketch _ _ _ => 5
  | .expelReq _ _ _ _ => 6 | .expelResp _ _ _ => 7 | .record _ _ _ => 8 | .regReq _ _ _ _ _ _ => 9
  | .regResp _ _ _ _ => 10 | .supervision => 0

/-- The body of a tree frame (tables Relay payload and Tree frames, R374, R384). -/
def TreeBody.bytes : TreeBody → List Byte
  | .event _ e => e.bytes
  | .bcast m _ => leBytes 4 m.id ++ leBytes 1 m.op ++ leBytes 1 (b2n m.adopted) ++ [0, 0] ++ leBytes 4 m.adoptFor ++
      leBytes 8 m.decideAt ++ m.body.bytes
  | .hopAck id op => leBytes 4 id ++ leBytes 1 op ++ [0, 0, 0]
  | .ready id op p r u n => leBytes 4 id ++ leBytes 1 op ++ [0, 0, 0] ++ leBytes 4 p ++ leBytes 4 r ++ leBytes 4 u ++ leBytes 4 n
  | .sketch off total bs => leBytes 4 off ++ leBytes 4 total ++ bs
  | .expelReq gdid part entity score => leBytes 4 gdid ++ leBytes 2 part ++ [0, 0] ++ leBytes 4 entity ++ leBytes 4 score
  | .expelResp gdid result cause => leBytes 4 gdid ++ leBytes 1 result ++ leBytes 1 cause ++ [0, 0]
  | .record gdid kind bs => leBytes 4 gdid ++ leBytes 1 kind ++ [0, 0, 0] ++ bs
  | .regReq gdid id op n addr ws =>
    leBytes 4 gdid ++ leBytes 2 id ++ leBytes 1 op ++ leBytes 1 n ++ leBytes 4 addr ++ (ws.map fun w => leBytes 4 w.toNat).flatten
  | .regResp id st n ws => leBytes 2 id ++ leBytes 1 st ++ leBytes 1 n ++ (ws.map fun w => leBytes 4 w.toNat).flatten
  | .supervision => []

/-- The egress priority of a frame (R378). That of a redundancy supervision frame is stated nowhere: the lowest (log entry
203). -/
def TreeBody.priority : TreeBody → Nat
  | .event _ _ => 7 | .regReq _ _ _ _ _ _ => 5 | .regResp _ _ _ _ => 5 | .record _ _ _ => 4 | .supervision => 0 | _ => 6

/-- The payload of a tree frame before its CRC (table Relay payload): VERSION, KIND, ORIGIN, RELAY_SEQ and the body. -/
def TreeBody.framed (b : TreeBody) (origin seq : Nat) : List Byte :=
  [1] ++ leBytes 1 b.kind ++ [0, 0] ++ leBytes 4 origin ++ leBytes 4 seq ++ b.bytes

/-- Whether the payload of a received frame of the tree is whole (R227, R311): its VERSION and its CRC. -/
def EthHdr.whole (h : EthHdr) (b : TreeBody) : Bool := h.version == 1 && h.crc == (crc32 (b.framed h.node h.seq)).toNat

/-- A frame put into the egress queue of its priority (R378). -/
def Agg.ethQueue (g : Agg) (rank : Nat) (o : Out) : Agg := g.onEst fun e => { e with egress := e.egress ++ [(rank, o)] }

/-- A frame sent on a port is counted (R389). -/
def Agg.txFrame (g : Agg) (i : Nat) : Agg := g.onPart fun p => p.incWrap ((8 + i) * 0x1000 + 0x54) 1

/-- A frame received on a port is counted, and its LAN is alive (R379, R389). -/
def Agg.rxFrame (g : Agg) (i : Nat) : Agg :=
  let b := (8 + i) * 0x1000
  (g.onPart fun p => ((p.incWrap (b + 0x50) 1).event (8 + i)).setBit (b + 0x44) 2 true).onEst fun e =>
    { e with lastRx := sput 0 e.lastRx i g.now }

/-- A frame for every Ethernet port that is up, with the node's next RELAY_SEQ (R227) and, under PRP, one sequence
number for both (R379). -/
def Agg.ethSend (g : Agg) (dest : Nat) (body : TreeBody) : Agg :=
  let s := g.est.relaySeq
  let prp := if g.part.bit 0x4100 4 then some g.est.prpSeq else none
  let tree := body.kind != 0
  let payload := if tree then withCrc (body.framed g.nodeId s) else []
  let g := (List.range 2).foldl (fun g i =>
    if g.ethUp i then
      (g.txFrame i).ethQueue body.priority
        (.eth i dest (if tree then some body.priority else none) prp body payload)
    else g) g
  g.onEst fun e => { e with
    relaySeq := if tree then (s + 1) % 4294967296 else s
    prpSeq := if prp.isSome then (e.prpSeq + 1) % 65536 else e.prpSeq }

/-- The egress queues emptied in strict priority (R378): the untagged IEEE 1588 messages first, then 7 down to 0. -/
def Agg.egressDrain (g : Agg) : Agg :=
  let fs := ((List.range 9).map fun k => (g.est.egress.filter fun x => x.1 == 8 - k).map fun x => x.2).flatten
  (g.onPart fun p => { p with out := p.out ++ fs }).onEst fun e => { e with egress := [] }

/-- The reception checks of a frame (R378, R379): errors and oversize counted and dropped, a second copy discarded, the
trailer's LAN checked. The answer tells whether the frame stands. -/
def Agg.ethIn (g : Agg) (h : EthHdr) : Bool × Agg :=
  let b := (8 + h.port.val) * 0x1000
  if !g.ethUp h.port.val then (false, g)
  else if h.bad || decide (h.len < 64) then (false, g.onPart fun p => p.inc (b + 0x58))
  else
    let g := g.rxFrame h.port
    if g.part.fld (b + 0x48) 0 14 < h.len then (false, g.onPart fun p => p.inc (b + 0x5C))
    else match h.prp with
      | none => (true, g)
      | some (seq, lan) =>
        if !g.part.bit 0x4100 4 then (true, g)
        else
          let g := if lan = 0xA + h.port.val then g else g.onPart fun p => p.inc (b + 0x64)
          let live := g.est.prpSeen.filter fun x => g.now ≤ x.2.2 + g.part.fld 0x4120 0 16 * 1000000
          if live.any fun x => x.1 == h.src && x.2.1 == seq then
            (false, (g.onEst fun e => { e with prpSeen := live }).onPart fun p => p.inc (b + 0x60))
          else (true, g.onEst fun e => { e with prpSeen := ((h.src, seq, g.now) :: live).take 4096 })

/-- The reception checks of a frame of the tree: its port's, then its payload's (R227, R311). -/
def Agg.treeIn (g : Agg) (h : EthHdr) (body : TreeBody) : Bool × Agg :=
  let (ok, g) := g.ethIn h
  (ok && h.whole body, g)

/-! ### Routes and fences -/

/-- FLAGS of a routing entry (R383). -/
def Agg.rFlags (g : Agg) (gdid : Nat) : Nat := Mem.rdLE g.est.route (16 * gdid + 5) 1
/-- The entry of a GDID is VALID (R383). -/
def Agg.routed (g : Agg) (gdid : Nat) : Bool := decide (gdid < 262144) && (g.rFlags gdid).testBit 0
/-- The entry is LOCAL. -/
def Agg.rLocal (g : Agg) (gdid : Nat) : Bool := g.routed gdid && (g.rFlags gdid).testBit 1
/-- Its lane. -/
def Agg.rPort (g : Agg) (gdid : Nat) : Nat := Mem.rdLE g.est.route (16 * gdid + 4) 1 % 16
/-- Its node. -/
def Agg.rNode (g : Agg) (gdid : Nat) : Nat := Mem.rdLE g.est.route (16 * gdid) 4
/-- Its partition; 0xFFFF without a route. -/
def Agg.rPartition (g : Agg) (gdid : Nat) : Nat :=
  if g.routed gdid then Mem.rdLE g.est.route (16 * gdid + 6) 2 else 0xFFFF
/-- The destination of its subscribed records. -/
def Agg.rSub (g : Agg) (gdid : Nat) : Nat := Mem.rdLE g.est.route (16 * gdid + 8) 4

/-- Traffic for a GDID that cannot be routed (R383, R390). -/
def Agg.unroutable (g : Agg) (gdid src : Nat) : Agg :=
  g.onPart fun p => (p.inc 0x405C).raise 4 16 { detail := leBytes 4 gdid ++ leBytes 1 src }

/-- FLAGS of a fence entry (R385). -/
def Agg.fFlags (g : Agg) (part : Nat) : Nat := Mem.rdLE g.est.fence (16 * part) 2
/-- A fence entry is VALID. -/
def Agg.fValid (g : Agg) (part : Nat) : Bool := (g.fFlags part).testBit 0
/-- The partition has members outside the tray. -/
def Agg.fRemote (g : Agg) (part : Nat) : Bool := g.fValid part && (g.fFlags part).testBit 1
/-- LOCAL_MASK. -/
def Agg.fMask (g : Agg) (part : Nat) : Nat := if g.fValid part then Mem.rdLE g.est.fence (16 * part + 8) 2 else 0
/-- TYPE_MASK. -/
def Agg.fTypes (g : Agg) (part : Nat) : Nat := Mem.rdLE g.est.fence (16 * part + 10) 2
/-- GROUP, as a number. -/
def Agg.fGroup (g : Agg) (part : Nat) : Nat := Mem.rdLE g.est.fence (16 * part + 2) 6

/-- The lanes of a bit map. -/
def maskLanes (m : Nat) : List Nat := (List.range 16).filter fun d => m.testBit d

/-- FENCE_DROP (R385, R390): cause 1 no entry, 2 type, 3 address, 4 die not a member. -/
def Agg.fenceDrop (g : Agg) (e : BoreEvent) (cause : Nat) : Agg :=
  g.onPart fun p => (p.inc 0x4060).raise 4 17
    { detail := leBytes 2 e.partition ++ leBytes 1 e.typ ++ leBytes 1 cause ++ leBytes 4 e.source }

end Sys2Proof.Machine
end

