-- ==== Sys2Proof/Machine/AggBore.lean ====
section
/-! DEFINITION. Bore at the aggregator (chapter 10): the copies down a die's pairs with Levee's clamp (R350), events of its
own, cuts of the port counters (R286), and the path comparison with its dispute (R305, R306). -/

namespace Sys2Proof.Machine

/-- OP_CAP of a die (R356). -/
def Agg.opCap (g : Agg) (l : Nat) : Nat := g.part.fld (0x306C + 4 * (l / 8)) (4 * (l % 8)) 3

/-- A frame on each of a pair position's three pairs, with that lane's LINK_SEQ (R222); the lanes carry nothing while REF156 is
lost (R443). -/
def Agg.boreDown (g : Agg) (l : Nat) (e : BoreEvent) : Agg :=
  if g.part.disc.refLoss then g
  else (List.range 3).foldl (fun g c =>
    let n := sget 0 g.boreTx (3 * l + c)
    { g with boreTx := sput 0 g.boreTx (3 * l + c) ((n + 1) % 65536) }.show (.boreFrame (3 * l + c) (.make c n e))) g

/-- An event delivered to the die of a port: a POWER_STEP clamped to its OP_CAP (R350), and the port's counters latched for
a cut, at once or at its EXEC_TIME (R286). -/
def Agg.boreTo (g : Agg) (l : Nat) (e : BoreEvent) : Agg :=
  let op := e.qual % 8
  let cap := g.opCap l
  if e.typ = 6 ∧ op < cap then
    (g.onPart fun p => (p.inc 0x308C).raise 3 19
      { unit := l, detail := leBytes 1 l ++ leBytes 1 op ++ leBytes 1 cap ++ leBytes 4 e.arg1 }).boreDown l
      { e with qual := e.qual - op + cap }
  else
    let g := if e.typ = 1 ∨ e.typ = 2 then
        (if e.exec = 0 then g.onLane l fun p s => cutLatch p s (some l) e.arg0
         else { g with cutDue := g.cutDue ++ [(e.exec, l, e.arg0)] })
      else g
    g.boreDown l e

/-- An event delivered to the dies of several ports. -/
def Agg.boreAll (g : Agg) (ls : List Nat) (e : BoreEvent) : Agg := ls.foldl (fun g l => g.boreTo l e) g

/-- The counters latched for every timed cut whose instant has come (R286). -/
def Agg.cutsDue (g : Agg) : Agg :=
  let g' := (g.cutDue.filter fun x => x.1 ≤ g.now).foldl (fun g x => g.onLane x.2.1 fun p s => cutLatch p s (some x.2.1) x.2.2) g
  { g' with cutDue := g.cutDue.filter fun x => g.now < x.1 }

/-- Time carried forward to an instant, with the cuts that fall due. -/
def Agg.reach (g : Agg) (ns : Nat) : Agg := (g.onPart fun p => p.reach ns).cutsDue

/-- An event of the aggregator's own (R223): AGG_SOURCE, its node as SOURCE, its next SEQ. -/
def Agg.makeEvent (g : Agg) (typ qual scope partition dest exec arg0 arg1 : Nat) : BoreEvent × Agg :=
  ({ typ := typ, qual := qual, scope := scope + 16, partition := partition, seq := g.boreSeq, source := g.nodeId
     dest := dest, exec := exec, arg0 := arg0, arg1 := arg1 }, { g with boreSeq := (g.boreSeq + 1) % 65536 })

/-- A FENCE event to one die, unfiltered (R385, R386). -/
def Agg.fence (g : Agg) (l qual arg0 partition : Nat) : Agg :=
  let (e, g) := g.makeEvent 10 qual 1 partition (g.peer l) 0 arg0 0
  g.boreDown l e

/-! ### The path comparison -/

/-- A port's die is a member of a job (R291). -/
def Agg.isMember (g : Agg) (l : Nat) : Bool := (sget none g.conf.member l).isSome

/-- The current a die's Levee input last read, 1/16 A (R305, R341). -/
def Agg.dieCurrent (g : Agg) (l : Nat) : Nat := g.part.fld (0x310C + 0x40 * l) 0 16

/-- The Bore receive lanes of a port that carried a valid block within DISPUTE_SILENT_NS, as a mask. -/
def Agg.liveLanes (g : Agg) (l : Nat) : Nat := sget 0 g.conf.boreLive l

/-- Whether MGMT_ALIVE holds (R305). -/
def Agg.mgmtAlive (g : Agg) (l : Nat) : Bool :=
  let m := g.liveLanes l
  decide (2 ≤ ((List.range 3).filter fun c => m.testBit c).length) ||
    decide (g.part.fld 0x1090 0 16 ≤ g.dieCurrent l)

/-- Whether the two indications of a port differ. -/
def Agg.pathsDiffer (g : Agg) (l : Nat) : Bool := g.part.bit (dieState l) 1 != g.part.bit (dieState l) 2

/-- The indications of a member port set (R305), and when they began to differ. -/
def Agg.aliveSet (g : Agg) (l : Nat) (data : Bool) : Agg :=
  if !g.isMember l then g
  else
    let g := g.onPart fun p => (p.setBit (dieState l) 1 data).setBit (dieState l) 2 (g.mgmtAlive l)
    let s := sget none g.conf.differSince l
    let s := if g.pathsDiffer l then (match s with | none => some g.now | some t => some t) else none
    g.onConf fun c => { c with differSince := sput none c.differSince l s }

/-- A cell has arrived on a port (R305). -/
def Agg.cellAlive (g : Agg) (l : Nat) : Agg := (g.onConf fun c => { c with cellAt := sput 0 c.cellAt l g.now }).aliveSet l true

/-- MGMT_ALIVE follows its lanes and its current (R305). -/
def Agg.mgmtCheck (g : Agg) (l : Nat) : Agg := g.aliveSet l (g.part.bit (dieState l) 1)

/-- Bore blocks have arrived on the pairs of a mask. -/
def Agg.boreAlive (g : Agg) (l mask : Nat) : Agg :=
  (g.onConf fun c => { c with
    boreLive := sput 0 c.boreLive l (sget 0 c.boreLive l ||| mask)
    boreAt := (List.range 3).foldl (fun t k => if mask.testBit k then sput 0 t (3 * l + k) g.now else t) c.boreAt }).mgmtCheck l

/-- Whether the comparison runs: DISPUTE_EN, and the page not FAULTED. -/
def Agg.comparing (g : Agg) : Bool := g.part.bit 0x1040 2 && g.part.pstate 1 != .faulted

/-- A disagreement at a die (R306): FENCE DISPUTE and a DISPUTE cell with the next tag, DISPUTE_ACTIVE, a PATH_DISAGREE
record, a freeze. `trigger`: 1 data silent, 2 management silent, 3 note and acknowledgement differ. -/
def Agg.disputeRaise (g : Agg) (l trigger : Nat) : Agg :=
  if !g.comparing || !g.isMember l || g.part.bit (dieState l) 3 then g
  else
    let tag := g.part.fld 0x10AC 0 16
    let g := g.onPart fun p => p.setFld 0x10AC 0 16 (tag + 1)
    let g := g.fence l 3 (tag + 0x3FF0000) (g.rPartition (g.peer l))
    let g := g.onLane l fun p s => strictPut p s (some l) 1 2048
      { typ := 6, len := 8, body := .dispute tag 0x3FF, enq := p.t }
    let g := g.onPart fun p => ((p.setBit (dieState l) 3 true).setFld (dieState l) 16 16 tag).raiseEach 1 19
      { unit := l, detail := leBytes 4 (g.peer l) ++ leBytes 2 tag ++ leBytes 1 trigger ++ leBytes 1 (g.liveLanes l) ++
          leBytes 2 (g.dieCurrent l) }
    g.freezeCause 1 l

/-- A die's account of an event by one path (0 note, 1 acknowledgement) set beside the other's (R305): different statuses
are a disagreement. The SIMPLEX mark takes no part. -/
def Agg.pathTold (g : Agg) (path l seq source status : Nat) : Agg :=
  match g.conf.told.find? fun x => x.1 == 1 - path && x.2.1 == l && x.2.2.1 == seq && x.2.2.2.1 == source with
  | some x =>
    let g := g.onConf fun c => { c with told := c.told.erase x }
    if x.2.2.2.2 = status % 128 then g else g.disputeRaise l 3
  | none => if g.isMember l then
      g.onConf fun c => { c with told := c.told ++ [(path, l, seq, source, status % 128)] } else g

end Sys2Proof.Machine
end

