-- ==== Sys2Proof/Machine/Levee.lean ====
section
/-! DEFINITION. Levee (chapter 15): channels, throttle and shutdown (R341–R346), VRM enables (R345, R348), limits loaded and
their strictness (R348, R349). -/

namespace Sys2Proof.Machine

/-- The first register of a channel (R356). -/
def chAddr (c : Nat) : Nat := 0x3100 + 0x10 * c
/-- KIND of a channel. -/
def Agg.chKind (g : Agg) (c : Nat) : Nat := g.part.fld (chAddr c) 0 2
/-- DIR 1, a lower limit. -/
def Agg.chLower (g : Agg) (c : Nat) : Bool := g.part.bit (chAddr c) 2
/-- PRESENT. -/
def Agg.chPresent (g : Agg) (c : Nat) : Bool := g.part.bit (chAddr c) 3
/-- HYST. -/
def Agg.chHyst (g : Agg) (c : Nat) : Nat := g.part.fld (chAddr c) 4 12
/-- DIE_MASK. -/
def Agg.chMask (g : Agg) (c : Nat) : Nat := g.part.fld (chAddr c) 16 16
/-- Threshold 1–3 as TH1–TH3, 4 as SHUT. -/
def Agg.chTh (g : Agg) (c i : Nat) : Nat := g.part.fld (chAddr c + 4 + 4 * ((i - 1) / 2)) (16 * ((i - 1) % 2)) 16
/-- LEVEL of a channel. -/
def Agg.chLevel (g : Agg) (c : Nat) : Nat := g.part.fld (chAddr c + 12) 16 2
/-- The trackers of a channel. -/
def Agg.chan (g : Agg) (c : Nat) : ChanState := sget {} g.lev.chans c
/-- The trackers of a channel set. -/
def Agg.setChan (g : Agg) (c : Nat) (x : ChanState) : Agg := g.onLev fun v => { v with chans := sput {} v.chans c x }

/-- A value in a channel's encoding (R341). -/
def chVal (kind v : Nat) : Int := if kind = 0 then signed v 16 else (v : Int)

/-- A threshold at the most lenient value of its encoding is disabled (R342). -/
def thDisabled (kind : Nat) (lower : Bool) (x : Nat) : Bool :=
  x == (if kind = 0 then (if lower then 0x8000 else 0x7FFF) else (if lower then 0 else 0xFFFF))

/-- A sample beyond a threshold (R342). -/
def thBeyond (kind : Nat) (lower : Bool) (v x : Nat) : Bool :=
  !thDisabled kind lower x &&
    (if lower then decide (chVal kind v < chVal kind x) else decide (chVal kind x < chVal kind v))

/-- A sample on the safe side of a threshold by at least HYST (R343); of a disabled one always. -/
def thSafe (kind : Nat) (lower : Bool) (hyst v x : Nat) : Bool :=
  thDisabled kind lower x ||
    (if lower then decide (chVal kind x + hyst ≤ chVal kind v) else decide (chVal kind v + hyst ≤ chVal kind x))

/-! ### Outputs -/

/-- The throttle level of a die (R343): the highest of its channels and of FORCE_THROTTLE. -/
def Agg.dieLevel (g : Agg) (d : Nat) : Nat :=
  (List.range 96).foldl (fun m c =>
    if g.chPresent c && (g.chMask c).testBit d then max m (g.chLevel c) else m) (g.part.fld 0x3068 (2 * d) 2)

/-- The throttle outputs driven (R343); each rise is counted and raises THROTTLE with the channel and sample behind it. -/
def Agg.throttle (g : Agg) (chan sample : Nat) : Agg :=
  (List.range 16).foldl (fun g d =>
    let old := g.part.fld 0x305C (2 * d) 2
    let new := g.dieLevel d
    let g := g.onPart fun p => p.setFld 0x305C (2 * d) 2 new
    if old < new then
      g.onPart fun p => ((p.inc (0x3700 + 8 * d)).event 3).raise 3 16
        { unit := d, detail := leBytes 1 d ++ leBytes 1 new ++ leBytes 1 chan ++ leBytes 2 sample }
    else g) g

/-- The VRM enables (R345, R348, R453): off until the limits are loaded, after a trip, and for every VRM that feeds a die
whose VRMs are dropped. -/
def Agg.vrmDrive (g : Agg) : Agg :=
  let on (k : Nat) : Bool := g.part.bit 0x3044 0 && !g.chip.tripped && (sget 0 g.lev.vrmMap k &&& g.lev.dropped) == 0
  g.onPart fun p => p.setNum 0x3064 (((List.range 32).map fun k => if on k then 2 ^ k else 0).sum)

/-- SHUTDOWN asserts for a die (R344, R345): latched, counted, recorded, and its VRMs due to drop. -/
def Agg.shutDie (g : Agg) (d c sample : Nat) : Agg :=
  if g.part.bit 0x3060 d then g
  else
    let g := g.onPart fun p => ((p.setBit 0x3060 d true).inc (0x3704 + 8 * d)).raiseEach 3 17
      { unit := d, detail := leBytes 1 d ++ leBytes 1 c ++ leBytes 2 sample ++ leBytes 2 (g.chTh c 4) ++ leBytes 8 p.now }
    g.onLev fun v => { v with offAt := sput none v.offAt d (some (g.now + g.part.fld 0x3054 0 14 * 1000)) }

/-- VRM_OFF_EXPIRED (R345). -/
def Agg.vrmOff (g : Agg) (d : Nat) : Agg :=
  match sget none g.lev.offAt d with
  | none => g
  | some t =>
    ((g.reach t).onLev fun v => { v with offAt := sput none v.offAt d none, dropped := v.dropped ||| 2 ^ d }).vrmDrive

/-! ### Conversions -/

/-- The levels of a channel whose threshold two samples in a row lie beyond (R343). -/
def ChanState.risen (x : ChanState) : Nat :=
  if 2 ≤ sget 0 x.beyond 3 then 3 else if 2 ≤ sget 0 x.beyond 2 then 2 else if 2 ≤ sget 0 x.beyond 1 then 1 else 0

/-- A valid sample's effect on a channel's runs. -/
def Agg.chTrack (g : Agg) (c v : Nat) : ChanState :=
  let k := g.chKind c
  let lo := g.chLower c
  let x := g.chan c
  let step (x : ChanState) (i : Nat) : ChanState :=
    { x with
      beyond := sput 0 x.beyond i (if thBeyond k lo v (g.chTh c i) then min 2 (sget 0 x.beyond i + 1) else 0)
      safe := sput none x.safe i (if thSafe k lo (g.chHyst c) v (g.chTh c i) then
        (match sget none x.safe i with | none => some (g.now : Int) | some t => some t) else none) }
  let x := step (step (step x 1) 2) 3
  { x with shutRun := if thBeyond k lo v (g.chTh c 4) then min 40 (x.shutRun + 1) else 0, bad := 0, good := min 10 (x.good + 1) }

/-- The level of a channel after a sample (R343). -/
def Agg.chNext (g : Agg) (c : Nat) (x : ChanState) : Nat :=
  let lvl := g.chLevel c
  if lvl < x.risen then x.risen
  else if lvl = 0 then 0
  else match sget none x.safe lvl with
    | some t => if t + g.part.num 0x3050 * 1000 ≤ g.now then lvl - 1 else lvl
    | none => lvl

/-- The THROTTLE stage of a channel (R344): it runs from the first sample beyond a threshold above its level to the rise. -/
def Agg.chStage (g : Agg) (c lvl new : Nat) (x : ChanState) : Agg :=
  g.onPart fun p =>
    let p := if lvl < new then (p.stageDone 3 0 c).2 else p
    if (List.range 3).any fun i => decide (new ≤ i ∧ 0 < sget 0 x.beyond (i + 1)) then
      (if (p.stageFind 3 0 c).isSome then p else p.stageStart 3 0 c 0 p.now)
    else p.stageDrop 3 0 c

/-- The SHUTDOWN of a channel (R344): its stage runs from the first sample beyond SHUT. -/
def Agg.chShut (g : Agg) (c v : Nat) (x : ChanState) : Agg :=
  let thr := g.part.fld 0x304C 0 6
  let was := g.part.bit (chAddr c + 12) 18
  let g := if x.shutRun = 0 then g.onPart fun p => p.stageDrop 3 1 c
    else if x.shutRun = 1 ∧ !was then g.onPart fun p => p.stageStart 3 1 c 0 p.now else g
  if !was && decide (0 < x.shutRun ∧ thr ≤ x.shutRun) then
    let g := g.onPart fun p => ((p.stageDone 3 1 c).2).setBit (chAddr c + 12) 18 true
    (maskLanes (g.chMask c)).foldl (fun g d => g.shutDie d c v) g
  else if was && thSafe (g.chKind c) (g.chLower c) (g.chHyst c) v (g.chTh c 4) then
    g.onPart fun p => p.setBit (chAddr c + 12) 18 false
  else g

/-- A valid sample (R343, R344, R346). -/
def Agg.adcSample (g : Agg) (c v : Nat) : Agg :=
  let g := g.onPart fun p => p.setFld (chAddr c + 12) 0 16 v
  if !g.chPresent c then g
  else
    let x := g.chTrack c v
    let g := g.setChan c x
    let fault := g.part.bit (chAddr c + 12) 19 && decide (x.good < 10)
    let g := g.onPart fun p => p.setBit (chAddr c + 12) 19 fault
    let lvl := g.chLevel c
    let new := if fault then lvl else g.chNext c x
    let g := g.chStage c lvl new x
    let g := g.onPart fun p => p.setFld (chAddr c + 12) 16 2 new
    (g.chShut c v x).throttle c v

/-- An open input or a conversion out of range (R346): ten in a row take level 3 and raise ADC_FAULT. -/
def Agg.adcBad (g : Agg) (c cause : Nat) : Agg :=
  if !g.chPresent c then g
  else
    let x := g.chan c
    let n := min 10 (x.bad + 1)
    let g := g.setChan c { x with beyond := [], safe := [], shutRun := 0, bad := n, good := 0 }
    let g := g.onPart fun p => (p.stageDrop 3 0 c).stageDrop 3 1 c
    if n = 10 ∧ !g.part.bit (chAddr c + 12) 19 then
      (g.onPart fun p => (((p.setBit (chAddr c + 12) 19 true).setFld (chAddr c + 12) 16 2 3).inc 0x3098).raise 3 20
        { unit := c, detail := leBytes 1 c ++ leBytes 1 cause }).throttle c (g.part.fld (chAddr c + 12) 0 16)
    else g

/-- ADC_CONVERSION (R343, R346); the current input of a die also counts for MGMT_ALIVE (R305). -/
def Agg.adc (g : Agg) (c : Nat) (r : AdcRead) : Agg :=
  let g := match r with
    | .sample v => g.adcSample c v.toNat
    | .openInput => g.adcBad c 1
    | .outOfRange => g.adcBad c 2
  if c < 64 ∧ c % 4 = 0 then g.mgmtCheck (c / 4) else g

/-! ### Clears and forced levels -/

/-- Whether a channel acting on a die is still within HYST of its SHUT (R345). -/
def Agg.nearShut (g : Agg) (d : Nat) : Bool :=
  (List.range 96).any fun c => g.chPresent c && (g.chMask c).testBit d &&
    !thSafe (g.chKind c) (g.chLower c) (g.chHyst c) (g.part.fld (chAddr c + 12) 0 16) (g.chTh c 4)

/-- SHUT_CLR (R345): refused whole while a channel of a named die is near its SHUT; a thermal trip holds (R453). -/
def Agg.shutClear (g : Agg) (w : W32) : Agg :=
  let ds := maskLanes w.toNat
  if ds.any g.nearShut then g.onPart fun p => p.accessErr 3 0x3058 w true
  else if g.chip.tripped then g
  else
    let m := (ds.map fun d => 2 ^ d).sum
    let g := g.onPart fun p => p.setFld 0x3060 0 16 (p.fld 0x3060 0 16 &&& (0xFFFF - m))
    (g.onLev fun v => { v with
      dropped := v.dropped &&& (0xFFFF - m)
      offAt := ds.foldl (fun o d => sput none o d none) v.offAt }).vrmDrive

/-- FORCE_THROTTLE written (R343): a forced rise has no channel and no sample, so those bytes are free values. -/
def Agg.forced (g : Agg) : Agg :=
  let (a, p) := g.part.draw32
  ({ g with part := p }).throttle (a.toNat % 256) (a.toNat / 256 % 65536)

/-! ### Limits -/

/-- Whether replacing limit value `o` by `n` loosens it (R349): the field at bit `lo` of the word at `addr`. `false` for a
field that is no limit of Levee. -/
def Agg.looser (g : Agg) (addr lo o n : Nat) : Bool :=
  if addr = 0x304C ∨ addr = 0x3054 then decide (o < n)
  else if addr = 0x306C ∨ addr = 0x3070 then decide (n < o)
  else if 0x3100 ≤ addr ∧ addr < 0x3700 then
    let c := (addr - 0x3100) / 16
    if addr % 16 = 0 then (if lo = 4 then decide (n < o) else n &&& o != o)
    else if g.chLower c then decide (chVal (g.chKind c) n < chVal (g.chKind c) o)
    else decide (chVal (g.chKind c) o < chVal (g.chKind c) n)
  else if addr = 0x2070 then decide (n < o)
  else if addr = 0x0068 then decide (signed o 16 < signed n 16)
  else false

/-- A channel's limits loaded; a die channel always acts on its die (R341). -/
def Agg.loadChan (g : Agg) (c kind : Nat) (lower present : Bool) (hyst mask t1 t2 t3 sh : Nat) : Agg :=
  let m := if c < 64 then mask ||| 2 ^ (c / 4) else mask
  g.onPart fun p =>
    ((p.setNum (chAddr c) (kind + 4 * b2n lower + 8 * b2n present + 16 * (hyst % 4096) + 65536 * (m % 65536))).setNum
      (chAddr c + 4) (t1 + 65536 * t2)).setNum (chAddr c + 8) (t3 + 65536 * sh)

/-- Limits loaded from a LEVEE section's body (R348). -/
def Agg.loadLevee (g : Agg) (b : List Byte) : Agg :=
  let f (i n : Nat) : Nat := leNat ((b.drop i).take n)
  let g := g.onPart fun p => (((p.setNum 0x304C (f 0 1)).setNum 0x3054 (f 2 2)).setNum 0x306C (f 4 4 &&& 0x77777777)).setNum
    0x3070 (f 8 4 &&& 0x77777777)
  let g := g.onLev fun v => { v with vrmMap := (List.range 32).foldl (fun m k => sput 0 m k (f (0xC + 2 * k) 2)) [] }
  let g := (List.range 96).foldl (fun g c =>
    let o := 0x4C + 16 * c
    let cfg := f o 1
    g.loadChan c (cfg % 4) (cfg.testBit 2) (cfg.testBit 3) (f (o + 2) 2) (f (o + 4) 2) (f (o + 6) 2) (f (o + 8) 2)
      (f (o + 10) 2) (f (o + 12) 2)) g
  (g.onPart fun p => p.setBit 0x3044 0 true).vrmDrive

/-- The built-in limits of one channel (table Built-in limits): KIND, lower, PRESENT, HYST, mask, TH1–TH3, SHUT. -/
def builtIn (c : Nat) : Nat × Bool × Bool × Nat × Nat × Nat × Nat × Nat × Nat :=
  if c < 64 then
    (match c % 4 with
      | 0 => (2, false, true, 800, 0, 22400, 24000, 25600, 28800)
      | 1 => (1, false, true, 160, 0, 0xFFFF, 0xFFFF, 0xFFFF, 8000)
      | 2 => (0, false, true, 48, 0, 1520, 1600, 1680, 1760)
      | _ => (0, false, true, 32, 0, 960, 1040, 1120, 1200))
  else if c < 68 then (0, false, true, 32, 0xFFFF, 640, 720, 800, 880)
  else if c < 72 then (3, true, true, 128, 0xFFFF, 0, 0, 11264, 10240)
  else if c < 76 then (2, false, true, 160, 0xFFFF, 5600, 6080, 6400, 7200)
  else (0, false, false, 0, 0, 0, 0, 0, 0)

/-- The built-in limits (R348); the VRM-to-die map is not stated there: free values. Cause: 1 record missing, 2 signature,
3 format. -/
def Agg.loadBuiltIn (g : Agg) (cause : Nat) : Agg :=
  let g := g.onPart fun p => (((p.setNum 0x304C 4).setNum 0x3054 100).setNum 0x306C 0x44444444).setNum 0x3070 0x44444444
  let g := (List.range 32).foldl (fun g k =>
    let (a, p) := g.part.draw32
    ({ g with part := p }).onLev fun v => { v with vrmMap := sput 0 v.vrmMap k (a.toNat % 65536) }) g
  let g := (List.range 96).foldl (fun g c =>
    let (k, lo, pr, h, m, t1, t2, t3, s) := builtIn c
    g.loadChan c k lo pr h m t1 t2 t3 s) g
  (g.onPart fun p => ((p.setBit 0x3044 0 true).setBit 0x3044 1 true).raise 3 18 { detail := leBytes 1 cause }).vrmDrive

end Sys2Proof.Machine
end

