-- ==== Sys2Proof/Machine/Bcasts.lean ====
section
/-! DEFINITION. Broadcasts down the tree (R311–R314): forwarding with alternates, READY sums, the decision at the root, and
the withdrawals. -/

namespace Sys2Proof.Machine

/-! ### The topology table -/

/-- Entry `i` of the topology table as NODE and ALT (R318). -/
def Agg.topoEntry (g : Agg) (i : Nat) : Nat × Nat := (Mem.rdLE g.conf.topo (8 * i) 4, Mem.rdLE g.conf.topo (8 * i + 4) 4)

/-- A node identifier that names a node: neither 0 nor all ones. -/
def isNode (n : Nat) : Bool := n != 0 && n != 0xFFFFFFFF

/-- The children of this node, with their place in the table. -/
def Agg.children (g : Agg) : List (Nat × Nat) :=
  ((List.range 32).map fun c => (c, (g.topoEntry c).1)).filter fun x => isNode x.2

/-- The children of child `c`, as node and alternate parent. -/
def Agg.grandchildren (g : Agg) (c : Nat) : List (Nat × Nat) :=
  ((List.range 32).map fun i => g.topoEntry (32 + 32 * c + i)).filter fun x => isNode x.1

/-! ### Broadcast states -/

/-- The broadcast of an identifier. -/
def Agg.bcast (g : Agg) (id : Nat) : Option BcState := g.conf.bcasts.find? fun b => b.msg.id == id

/-- A broadcast's state put back. -/
def Agg.putBcast (g : Agg) (b : BcState) : Agg :=
  g.onConf fun c => { c with bcasts := c.bcasts.map fun x => if x.msg.id = b.msg.id then b else x }

/-- A new broadcast kept; those whose instant has passed and that no descriptor waits for are dropped. -/
def Agg.newBcast (g : Agg) (b : BcState) : Agg :=
  g.onConf fun c => { c with
    bcasts := (c.bcasts.filter fun x => (x.desc.isSome || decide (g.now < x.msg.body.exec)) && x.msg.id != b.msg.id) ++ [b] }

/-- The execution time T. -/
def BcState.time (b : BcState) : Nat := b.msg.body.exec

/-- JOB_ID of a broadcast: of the job started, or of the job stepped. -/
def BcState.job (b : BcState) : Nat := if b.msg.op = 1 then b.msg.body.arg0 else b.msg.body.arg1

/-- Acknowledgements of the tray's dies summed (R312): POOLED, REFUSED, UNREACHED. -/
def BcState.ackSums (b : BcState) : Nat × Nat × Nat :=
  ((b.acks.filter fun a => a.2 == 0).length, (b.acks.filter fun a => a.2 != 0).length, b.lanes.length - b.acks.length)

/-- The READY totals at a node (R312). -/
def BcState.totals (b : BcState) : Nat × Nat × Nat :=
  let add (s : Nat × Nat × Nat) (r : Option (Nat × Nat × Nat)) : Nat × Nat × Nat :=
    match r with
    | none => s
    | some (p, q, u) => (s.1 + p, s.2.1 + q, s.2.2 + u)
  b.children.foldl (fun s c => add s c.ready) (add (0, b.refusedHere, b.unreached) b.own)

/-- Whether every part of a node's READY has come: its dies', and every child's that has not failed. -/
def BcState.complete (b : BcState) : Bool := b.own.isSome && b.children.all fun c => c.failed || c.ready.isSome

/-- A frame of a broadcast to one child, by its alternate where it was adopted (R312). -/
def Agg.bcastTo (g : Agg) (m : Bcast) (c : BcChild) : Agg :=
  match c.via with
  | none => g.ethSend c.node (.bcast m none)
  | some a => g.ethSend a (.bcast { m with adopted := true } (some c.node))

/-- A frame of a broadcast to every child; frames for adopted children come one by one and are passed on. -/
def Agg.bcastAll (g : Agg) (b : BcState) (m : Bcast) : Agg :=
  (b.children.filter fun c => !c.failed).foldl (fun g c => g.bcastTo m c) g

/-! ### Jobs -/

/-- The job of an identifier. -/
def Agg.job (g : Agg) (id : Nat) : Option Job := g.conf.jobs.find? fun j => j.id == id

/-- A job no longer tracked. -/
def Agg.dropJob (g : Agg) (id : Nat) : Agg := g.onConf fun c => { c with jobs := c.jobs.filter fun j => j.id != id }

/-- The member total of a job: its own tray's dies, and those its children reported. -/
def Job.members (j : Job) : Nat := j.own + (j.children.map fun x => x.2).sum

/-- The jobs a JOB_ABORT ends are no longer tracked: the one it names, or with 0xFFFF_FFFF every one of its partition (log
entry 94). -/
def Agg.jobsAbort (g : Agg) (e : BoreEvent) : Agg :=
  if e.typ = 8 then g.onConf fun c => { c with jobs := c.jobs.filter fun j =>
    !(j.partition == e.partition && (e.arg0 == j.id || e.arg0 == 0xFFFFFFFF)) }
  else g

/-- A JOB_START noted (R297): the job is tracked if there is room among 64, else it is refused. -/
def Agg.addJob (g : Agg) (id partition : Nat) : Bool × Agg :=
  let js := g.conf.jobs.filter fun j => j.id != id
  if 64 ≤ js.length then (false, g)
  else (true, g.onConf fun c => { c with jobs := js ++ [{ id := id, partition := partition }] })

/-- A child's READY noted in its job (R297). -/
def Agg.jobReady (g : Agg) (id node pooled : Nat) : Agg :=
  g.onConf fun c => { c with jobs := c.jobs.map fun j =>
    if j.id = id then
      { j with children := (j.children.filter fun x => x.1 != node) ++ [(node, pooled)] }
    else j }

/-! ### READY -/

/-- READY once it is complete (R312): summed to the parent; the root keeps its totals. -/
def Agg.readyCheck (g : Agg) (b : BcState) : Agg :=
  if !b.complete || b.readySent then g.putBcast b
  else
    let g := g.putBcast { b with readySent := true }
    match b.parent with
    | none => g
    | some p =>
      let (x, y, z) := b.totals
      g.ethSend p (.ready b.msg.id b.msg.op x y z g.nodeId)

/-- The tray's own part of READY is settled (R312). -/
def Agg.gathered (g : Agg) (b : BcState) : Agg :=
  if b.own.isSome then g
  else
    let g := if b.msg.op = 1 then g.onConf fun c => { c with jobs := c.jobs.map fun j =>
        if j.id = b.job then { j with own := b.ackSums.1 } else j } else g
    g.readyCheck { b with own := some b.ackSums, gatherUntil := none }

/-- An EVENT_ACK counted toward the broadcast it answers (R229, R312). -/
def Agg.ackCount (g : Agg) (l seq typ source status : Nat) : Agg :=
  match g.conf.bcasts.find? fun b => b.msg.body.seq == seq && b.msg.body.source == source && b.msg.body.typ == typ &&
      b.own.isNone && b.lanes.contains l && !((b.acks.map fun a => a.1).contains l) with
  | none => g
  | some b =>
    let b := { b with acks := b.acks ++ [(l, status % 128)] }
    if b.acks.length = b.lanes.length then g.gathered b else g.putBcast b

/-- A broadcast taken at a node (R312): forwarded to the children, and its BODY delivered to the tray's dies of the
partition, whose acknowledgements are gathered for HOP_ACK_NS. A child refused at link-up takes no part (R15). -/
def Agg.bcastTake (g : Agg) (m : Bcast) (parent : Option Nat) (expected : Nat) (desc : Option (Nat × Nat)) (plan : Bool)
    (adopted : List (Nat × Nat)) : Agg :=
  let (room, g) := if m.op = 1 then g.addJob m.body.arg0 m.body.partition else (true, g)
  let ls := if g.interior then [] else (maskLanes (g.fMask m.body.partition)).filter fun l => !sget false g.conf.refused l
  let b : BcState :=
    { msg := m, parent := parent, children := g.children.map fun c => { node := c.2 }, adopted := adopted, lanes := ls
      gatherUntil := some (g.now + g.part.num 0x1098), refusedHere := if room then 0 else 1, expected := expected
      desc := desc, plan := plan }
  let g := ((g.newBcast b).bcastAll b m).boreAll ls m.body
  if ls.isEmpty then g.gathered b else g

/-- A broadcast started at the root (R312, R366): T is the body's EXEC_TIME, DECIDE lies BCAST_MARGIN_NS before it. -/
def Agg.bcastStart (g : Agg) (op : Nat) (body : BoreEvent) (expected : Nat) (desc : Option (Nat × Nat)) (plan : Bool) : Agg :=
  let id := g.conf.nextBcast
  let g := g.onConf fun c => { c with nextBcast := (id + 1) % 4294967296 }
  g.bcastTake { id := id, op := op, decideAt := body.exec - g.part.num 0x1094, body := body } none expected desc plan []

/-- BCAST_RECEIVE (R312): answered with HOP_ACK; an adopted child's is forwarded to it. -/
def Agg.bcastReceive (g : Agg) (h : EthHdr) (m : Bcast) (child : Option Nat) : Agg :=
  let g := g.ethSend h.node (.hopAck m.id m.op)
  match child with
  | some c =>
    let g := match g.bcast m.id with
      | some b => g.putBcast { b with adopted := (b.adopted.filter fun (a : Nat × Nat) => a.1 != c) ++ [(c, h.node)] }
      | none => g.newBcast { msg := m, parent := none, adopted := [(c, h.node)], own := some (0, 0, 0), readySent := true }
    g.ethSend c (.bcast m none)
  | none => match g.bcast m.id with
    | none => g.bcastTake m (some h.node) 0 none false []
    | some b => if b.parent.isNone && !b.adopted.isEmpty then g.bcastTake m (some h.node) 0 none false b.adopted else g

/-- READY from a child (R312): summed, or passed straight on for an adopted child. -/
def Agg.readyReceive (g : Agg) (id op pooled refused unreached node : Nat) : Agg :=
  match g.bcast id with
  | none => g
  | some b => match b.adopted.find? fun a => a.1 == node with
    | some a => g.ethSend a.2 (.ready id op pooled refused unreached node)
    | none =>
      if !b.children.any fun c => c.node == node then g
      else
        let g := if b.msg.op = 1 then g.jobReady b.job node pooled else g
        g.readyCheck { b with children := b.children.map fun c =>
          if c.node = node then { c with ready := some (pooled, refused, unreached) } else c }

/-- HOP_ACK from a child, or from the alternate that carries one (R312). -/
def Agg.hopAck (g : Agg) (id op node : Nat) : Agg :=
  match g.bcast id with
  | none => g
  | some b => g.putBcast { b with children := b.children.map fun c =>
      if (match c.via with | none => c.node | some a => a) = node then
        (if op = 3 then { c with confirmed := true } else { c with acked := true })
      else c }

/-- The frame a broadcast last sent its children: the BCAST, CONFIRM or ABORT. -/
def BcState.lastFrame (b : BcState) (abortBody : BoreEvent) : Bcast :=
  if b.abort then { b.msg with op := 4, body := abortBody } else if b.confirm then { b.msg with op := 3 } else b.msg

/-- The body that withdraws a broadcast (R313): JOB_ABORT of any job for a JOB_START, the same POWER_STEP with CANCEL. -/
def Agg.abortBody (g : Agg) (b : BcState) : BoreEvent × Agg :=
  if b.msg.op = 1 then g.makeEvent 8 0 2 b.msg.body.partition 0xFFFFFFFF b.time 0xFFFFFFFF 0
  else ({ b.msg.body with qual := b.msg.body.qual % 8 + 8 }, g)

/-- HOP_ACK_TIMEOUT (R312): a child that has not acknowledged the last frame is failed; each of its children is adopted by
its alternate, and one without an alternate, or behind one that failed too, counts its dies as UNREACHED, as a child without
children does. How many they are is not known here: a free value. -/
def Agg.hopTimeout (g : Agg) (id node : Nat) : Agg :=
  match g.bcast id with
  | none => g
  | some b => match b.children.find? fun c => c.node == node && !c.failed &&
      !(if b.confirm && !b.abort then c.confirmed else c.acked) with
    | none => g
    | some c =>
      let gs : List (Nat × Nat) := match c.via with
        | some _ => []
        | none => match g.children.find? fun x => x.2 == node with
          | some x => g.grandchildren x.1
          | none => []
      let (yes, no) := gs.partition fun x => isNode x.2
      let n := no.length + (if c.via.isSome || gs.isEmpty then 1 else 0)
      let (lost, p) := (List.range n).foldl (fun (s : Nat × Part) _ => (s.1 + s.2.draw32.1.toNat, s.2.draw32.2)) (0, g.part)
      let g := { g with part := p }
      let kids : List BcChild := yes.map fun (x : Nat × Nat) => { node := x.1, via := some x.2, asked := b.confirm }
      let b' := { b with
        children := (b.children.map fun x => if x = c then { x with failed := true } else x) ++ kids
        unreached := b.unreached + lost }
      let (ab, g) := if b.abort then g.abortBody b else (b.msg.body, g)
      let g := kids.foldl (fun (g : Agg) (k : BcChild) => g.bcastTo { b.lastFrame ab with adopted := true, adoptFor := node } k) g
      let g := g.readyCheck b'
      if c.via.isSome then g
      else g.onPart fun p => (p.inc 0x10C4).raise 1 24
        { detail := leBytes 4 id ++ leBytes 4 node ++ leBytes 1 kids.length }

/-- ACK_GATHER_EXPIRED (R312): READY goes with the acknowledgements gathered. -/
def Agg.gatherExpired (g : Agg) (id : Nat) : Agg :=
  match g.bcast id with
  | none => g
  | some b => match b.gatherUntil with
    | none => g
    | some t => if b.own.isSome then g else (g.reach t).gathered b

/-! ### The decision -/

/-- The first node short of a broadcast (R319): a child whose READY is missing or not clean, else this node. -/
def Agg.firstShort (g : Agg) (b : BcState) : Nat :=
  match b.children.find? fun c => !c.failed && (match c.ready with | some (_, 0, 0) => false | _ => true) with
  | some c => c.node
  | none => g.nodeId

/-- ABORT_SENT counted and recorded (R319). -/
def Agg.abortSent (g : Agg) (b : BcState) (cause node : Nat) : Agg :=
  g.onPart fun p => (p.inc 0x10C8).raiseEach 1 25
    { detail := leBytes 4 b.msg.id ++ leBytes 4 b.job ++ leBytes 1 cause ++ leBytes 4 node }

/-- A broadcast withdrawn at this node: forwarded and delivered to the tray's dies (R313). A withdrawn JOB_START is no job;
a withdrawn step of a plan is remembered (R355). -/
def Agg.withdraw (g : Agg) (b : BcState) (body : BoreEvent) : Agg :=
  let g := g.putBcast { b with abort := true, children := b.children.map fun c => { c with acked := false } }
  let g := (g.bcastAll b { b.msg with op := 4, body := body }).boreAll b.lanes body
  if b.msg.op = 1 then g.dropJob b.job
  else g.onLev fun v => { v with cancelled := if b.job ∈ v.cancelled then v.cancelled else v.cancelled ++ [b.job] }

/-- The root sends ABORT (R313). -/
def Agg.rootAbort (g : Agg) (b : BcState) (cause node : Nat) : Agg :=
  let (body, g) := g.abortBody b
  (g.withdraw b body).abortSent b cause node

/-- CONFIRM taken at a node (R313): forwarded; a started job replaces the earlier one of its partition. -/
def Agg.confirmTake (g : Agg) (b : BcState) : Agg :=
  let b' := { b with confirm := true, children := b.children.map fun c => if c.failed then c else { c with asked := true } }
  let g := (g.putBcast b').bcastAll b { b.msg with op := 3 }
  if b.msg.op = 1 then
    g.onConf fun c => { c with jobs := c.jobs.filter fun j => j.id == b.job || j.partition != b.msg.body.partition }
  else g

/-- BCAST_DECIDE (R313): the root confirms when every member pooled, and aborts otherwise. -/
def Agg.decide_ (g : Agg) (id : Nat) : Agg :=
  match g.bcast id with
  | none => g
  | some b =>
    if !g.isRoot || b.parent.isSome || b.confirm || b.abort then g
    else
      let g := g.reach b.msg.decideAt
      let (x, y, z) := b.totals
      if x = b.expected ∧ y = 0 ∧ z = 0 then g.confirmTake b
      else g.rootAbort b (if y = 0 then 1 else 2) (g.firstShort b)

/-- CONFIRM received (R313). -/
def Agg.confirmReceive (g : Agg) (h : EthHdr) (id : Nat) (child : Option Nat) : Agg :=
  let g := g.ethSend h.node (.hopAck id 3)
  match g.bcast id with
  | none => g
  | some b => match child with
    | some c => g.ethSend c (.bcast { b.msg with op := 3 } none)
    | none => if b.confirm then g else g.confirmTake b

/-- BCAST ABORT received (R313): its body is delivered. -/
def Agg.abortReceive (g : Agg) (h : EthHdr) (id : Nat) (body : BoreEvent) (child : Option Nat) : Agg :=
  let g := g.ethSend h.node (.hopAck id 4)
  match g.bcast id with
  | none => g
  | some b => match child with
    | some c => g.ethSend c (.bcast { b.msg with op := 4, body := body } none)
    | none => if b.abort then g else g.withdraw b body

/-- Children whose CONFIRM acknowledgement is missing (R313, R314), also where they have been treated as failed since CONFIRM
was sent to them. -/
def BcState.unconfirmed (b : BcState) : List Nat :=
  (b.children.filter fun c => c.asked && !c.confirmed).map fun c => c.node

/-- CONFIRM_ACK_CHECK (R313): at T − margin / 4. -/
def Agg.confirmCheck (g : Agg) (id : Nat) : Agg :=
  match g.bcast id with
  | none => g
  | some b =>
    if b.parent.isSome || !b.confirm || b.abort then g
    else
      let g := g.reach (b.time - g.part.num 0x1094 / 4)
      match b.unconfirmed with
      | [] => g
      | n :: _ => g.rootAbort b 3 n

/-- TRAY_SELF_ABORT (R314): at T − margin / 2 a tray without CONFIRM withdraws on its own dies. -/
def Agg.selfAbort (g : Agg) (id : Nat) : Agg :=
  match g.bcast id with
  | none => g
  | some b =>
    if g.interior || b.parent.isNone || b.confirm || b.abort then g
    else
      let g := g.reach (b.time - g.part.num 0x1094 / 2)
      let (body, g) := g.abortBody b
      let g := (g.putBcast { b with abort := true }).boreAll b.lanes body
      let g := if b.msg.op = 1 then g.dropJob b.job else g
      g.abortSent b 4 g.nodeId

/-- START_SPLIT (R314): at T, a CONFIRM acknowledgement still missing names its node. -/
def Agg.startSplit (g : Agg) (id : Nat) : Agg :=
  match g.bcast id with
  | none => g
  | some b =>
    if b.parent.isSome || !b.confirm || b.split then g
    else
      let g := g.reach b.time
      match b.unconfirmed with
      | [] => g
      | ns =>
        let g := g.putBcast { b with split := true }
        ns.foldl (fun g n => g.onPart fun p => p.raiseEach 1 26 { detail := leBytes 4 b.job ++ leBytes 4 n }) g

/-- How a broadcast ended for the descriptor that started it (R366): OK, ABORTED or SPLIT. -/
def BcState.status (b : BcState) : Nat := if b.split then 10 else if b.abort || !b.confirm then 9 else 0

/-! ### Stagger plans -/

/-- Plan broadcasts in flight (R355, R356): not withdrawn, and T still to come. -/
def Agg.planInflight (g : Agg) : Nat :=
  (g.conf.bcasts.filter fun b => b.plan && !b.abort && decide (g.now < b.time)).length

/-- A field of a plan entry (R353). -/
def Agg.planField (g : Agg) (i off n : Nat) : Nat := Mem.rdLE g.lev.plan (16 * i + off) n

/-- Whether PLAN_ARM refuses the plan (R353). -/
def Agg.planBad (g : Agg) : Bool :=
  let n := g.part.fld 0x3074 0 11
  let lead := g.part.num 0x3080
  (List.range n).any (fun i =>
    (decide (0 < i) && decide (g.planField i 0 4 < g.planField (i - 1) 0 4)) || decide (7 < g.planField i 10 1) ||
    decide (3 < g.planField i 11 1) || ((g.planField i 11 1).testBit 0 && g.planField i 8 2 == 0xFFFF)) ||
  decide (lead * 1000 ≤ 2 * g.part.num 0x1094) || decide (g.part.num64 0x3078 * 4294967296 < g.part.t + lead * 4294967296000) || !g.isRoot

/-- PLAN_ARM (R353): checked and started in ACTIVE, refused with ACCESS_ERR otherwise. -/
def Agg.planArm (g : Agg) (w : W32) : Agg :=
  if !g.part.active 3 || g.planBad then g.onPart fun p => p.accessErr 3 0x3040 w true
  else
    { g.onPart fun p => (p.setBit 0x3044 2 true).setFld 0x3088 0 11 0 with lev := { g.lev with cancelled := [], stopping := false } }

/-- PLAN_STOP (R355): no entry is launched any more; the plan ends with the broadcasts in flight. -/
def Agg.planStop (g : Agg) : Agg :=
  if g.part.bit 0x3044 2 then g.onLev fun v => { v with stopping := true } else g

/-- The plan ends once it launches no more and none of its broadcasts is in flight. -/
def Agg.planSettle (g : Agg) : Agg :=
  if g.part.bit 0x3044 2 && (g.lev.stopping || decide (g.part.fld 0x3074 0 11 ≤ g.part.fld 0x3088 0 11)) &&
      g.planInflight == 0 then
    (g.onPart fun p => p.setBit 0x3044 2 false).onLev fun v => { v with stopping := false }
  else g

/-- An entry skipped (R355). -/
def Agg.planSkip (g : Agg) (i cause : Nat) : Agg :=
  g.onPart fun p => (p.inc 0x3090).raiseEach 3 21
    { detail := leBytes 2 i ++ leBytes 4 (g.planField i 4 4) ++ leBytes 1 cause }

/-- The next entry that is VALID, from `i`, within `f` entries. -/
def Agg.planNext (g : Agg) : Nat → Nat → Nat
  | 0, i => i
  | f + 1, i => if (g.planField i 11 1).testBit 0 then i else Agg.planNext g f (i + 1)

/-- PLAN_LAUNCH (R354, R355): at T − PLAN_LEAD_US the next VALID entry starts a POWER_STEP broadcast, or is skipped. -/
def Agg.planLaunch (g : Agg) : Agg :=
  let n := g.part.fld 0x3074 0 11
  let k := g.part.fld 0x3088 0 11
  let i := g.planNext (n - k) k
  if !g.part.bit 0x3044 2 || g.lev.stopping || g.part.pstate 3 == .faulted then g
  else if n ≤ i then g.onPart fun p => p.setFld 0x3088 0 11 n
  else
    let t := g.part.num64 0x3078 + g.planField i 0 4 * 1000
    let g := g.reach (t - g.part.num 0x3080 * 1000)
    let g := g.onPart fun p => p.setFld 0x3088 0 11 (i + 1)
    let job := g.planField i 4 4
    let last := sget none g.conf.lastMerged job
    if 16 ≤ g.planInflight then g.planSkip i 1
    else if g.lev.cancelled.contains job then g.planSkip i 2
    else if last.isNone then g.planSkip i 3
    else
      let s := if (g.planField i 11 1).testBit 1 then g.planField i 12 4
        else ((match last with | some l => l | none => 0) + g.part.fld 0x3084 0 4) % 4294967296
      let (e, g) := g.makeEvent 6 (g.planField i 10 1) 2 (g.planField i 8 2) 0xFFFFFFFF t s job
      let members := match g.job job with | some j => j.members | none => 0
      (g.onPart fun p => p.inc 0x3094).bcastStart 2 e members none true

end Sys2Proof.Machine
end

