-- ==== Sys2Proof/Machine/Merge.lean ====
section
/-! DEFINITION. Step records and sketches (R290–R300, R310): metrics, merge contexts, the sketch format, the root block and
the straggler history. -/

namespace Sys2Proof.Machine

/-! ### Metrics -/

/-- The histogram bin of a value (R294). -/
def binOf (v : Nat) : Nat :=
  if v = 0 then 0
  else if 2147483648 ≤ v then 4095
  else
    let k := Nat.log2 v
    let m := if 7 ≤ k then (v - 2 ^ k) / 2 ^ (k - 7) else (v - 2 ^ k) * 2 ^ (7 - k)
    1 + 128 * k + m

/-- Twice the representative of a bin (R294): for k = 7 the midpoint lies half way between two integers. -/
def binRep2 (b : Nat) : Nat :=
  if b = 0 then 0
  else if b = 4095 then 4294967296
  else
    let k := (b - 1) / 128
    let m := (b - 1) % 128
    if k < 7 then 2 * (2 ^ k + m / 2 ^ (7 - k)) else 2 * (2 ^ k + m * 2 ^ (k - 7)) + 2 ^ (k - 7)

/-- The representative of a bin as the integer that Q50 and Q99 hold (R294, R295): DESIGN CHOICE (log entry 204), the half of
the bins with k = 7 is dropped. -/
def binRep (b : Nat) : Nat := binRep2 b / 2

/-- SRC of a metric. -/
def Metric.src (m : Metric) : Nat := m.cfg % 8
/-- DIR 1: keep the smallest. -/
def Metric.least (m : Metric) : Bool := m.cfg.testBit 3
/-- HIST. -/
def Metric.hist (m : Metric) : Bool := m.cfg.testBit 4
/-- TOP. -/
def Metric.list (m : Metric) : Bool := m.cfg.testBit 5

/-- Whether list entry `a` stands before `b` (R295): the better value, then the lower GDID. -/
def topBefore (least : Bool) (a b : Nat × Nat) : Bool :=
  if a.1 = b.1 then decide (a.2 < b.2) else if least then decide (a.1 < b.1) else decide (b.1 < a.1)

/-- An entry put in its place in a list, best first. -/
def topInsert (least : Bool) (a : Nat × Nat) : List (Nat × Nat) → List (Nat × Nat)
  | [] => [a]
  | b :: bs => if topBefore least a b then a :: b :: bs else b :: topInsert least a bs

/-- Lists united, the best 64 kept (R296). -/
def topMerge (least : Bool) (xs ys : List (Nat × Nat)) : List (Nat × Nat) :=
  (xs.foldl (fun l a => topInsert least a l) ys).take 64

/-- A value taken into a metric (R293). -/
def Metric.add (m : Metric) (v gdid : Nat) : Metric :=
  let m := if m.hist then
      { m with bins := sput 0 m.bins (binOf v) ((sget 0 m.bins (binOf v) + 1) % 4294967296)
               total := (m.total + 1) % 4294967296, res := (m.res + 1) % 3 }
    else m
  if m.list then { m with top := topMerge m.least [(v, gdid)] m.top } else m

/-- Two metrics of one configuration merged (R296). -/
def Metric.merge (a b : Metric) : Metric :=
  { a with
    bins := b.bins.foldl (fun s e => sput 0 s e.1 ((sget 0 s e.1 + e.2) % 4294967296)) a.bins
    total := (a.total + b.total) % 4294967296
    res := (a.res + b.res) % 3
    top := topMerge a.least b.top a.top }

/-- The metrics a context starts with (R293, R317): those present, without ENC. -/
def Agg.metrics (g : Agg) : List Metric :=
  ((List.range 4).filter fun m => g.part.bit (0x1060 + 4 * m) 6).map fun m => { cfg := g.part.fld (0x1060 + 4 * m) 0 6 }

/-! ### The sketch format -/

/-- A metric block (R295): sparse while 6 × NBINS is below 16,384. -/
def Metric.bytes (m : Metric) : List Byte :=
  let n := m.bins.length
  let dense := !decide (6 * n < 16384)
  leBytes 1 (m.cfg % 64 + (if dense then 64 else 0)) ++ leBytes 1 m.res ++ leBytes 1 m.top.length ++ [0] ++
    leBytes 4 m.total ++ leBytes 2 (if dense then 4096 else n) ++ [0, 0] ++
    (if dense then ((List.range 4096).map fun b => leBytes 4 (sget 0 m.bins b)).flatten
     else (m.bins.map fun e => leBytes 2 e.1 ++ leBytes 4 e.2).flatten) ++
    (m.top.map fun e => leBytes 8 e.1 ++ leBytes 4 e.2).flatten

/-- The bin that holds a rank (R295). -/
def rankBin (rank : Nat) : List (Nat × Nat) → Nat → Nat
  | [], _ => 0
  | (b, c) :: es, seen => if rank ≤ seen + c then b else rankBin rank es (seen + c)

/-- Q50 of a metric: 0 without a histogram or a value. -/
def Metric.q50 (m : Metric) : Nat :=
  if !m.hist || m.total == 0 then 0 else binRep (rankBin ((m.total + 1) / 2) m.bins 0)

/-- Q99 of a metric. -/
def Metric.q99 (m : Metric) : Nat :=
  if !m.hist || m.total == 0 then 0 else binRep (rankBin ((99 * m.total + 99) / 100) m.bins 0)

/-- The GDIDs and values of a metric's stragglers, with their places in the list (R300). -/
def Metric.stragglers (m : Metric) (pct least : Nat) : List (Nat × Nat × Nat) :=
  if m.hist && m.list && !m.least then
    let bound := m.q50 + max (m.q50 * pct / 100) least
    (((List.range m.top.length).zip m.top).filter fun x => bound ≤ x.2.1).map fun x => (x.1, x.2)
  else []

/-- The root block (R295, R299). -/
def Sketch.rootBlock (s : Sketch) (pct least : Nat) : List Byte :=
  (s.metrics.map fun m => leBytes 8 m.q50 ++ leBytes 8 m.q99 ++
    leBytes 8 ((m.stragglers pct least).map fun x => 2 ^ x.1).sum).flatten

/-- An encoded sketch (R295) from a node; `root` is the root block where there is one. -/
def Sketch.bytes (s : Sketch) (node level : Nat) (root : Option (List Byte)) : List Byte :=
  let body := (s.metrics.map Metric.bytes).flatten ++ (match root with | some r => r | none => [])
  withCrc (leBytes 4 node ++ [0x08] ++
    leBytes 1 (2 * b2n s.unsynced + 4 * b2n s.late + 8 * b2n s.injected + 16 + 32 * b2n s.cut + 64 * b2n root.isSome) ++
    leBytes 1 level ++ leBytes 1 s.metrics.length ++ leBytes 4 s.job ++ leBytes 4 s.step ++ leBytes 2 s.partition ++
    [0, 0] ++ leBytes 4 (60 + body.length) ++ leBytes 4 s.expected ++ leBytes 4 s.reported ++ leBytes 8 s.first ++
    leBytes 8 s.last ++ leBytes 4 s.lateRecords ++ leBytes 4 s.missingNodes ++ body)

/-- `n` metric blocks read from the bytes of a sketch. -/
def readMetrics : Nat → List Byte → List Metric
  | 0, _ => []
  | n + 1, bs =>
    let f (i k : Nat) : Nat := leNat ((bs.drop i).take k)
    let dense := (f 0 1).testBit 6
    let nb := f 8 2
    let bins := if dense then
        (List.range nb).foldl (fun m i => sput 0 m i (f (12 + 4 * i) 4)) []
      else (List.range nb).foldl (fun m i => sput 0 m (f (12 + 6 * i) 2) (f (14 + 6 * i) 4)) []
    let t := 12 + (if dense then 4 * nb else 6 * nb)
    let k := f 2 1
    { cfg := f 0 1 % 64, bins := bins, total := f 4 4, res := f 1 1 % 4
      top := (List.range k).map fun i => (f (t + 12 * i) 8, f (t + 12 * i + 8) 4) } :: readMetrics n (bs.drop (t + 12 * k))

/-- A sketch read from its bytes. -/
def readSketch (bs : List Byte) : Sketch :=
  let f (i k : Nat) : Nat := leNat ((bs.drop i).take k)
  let fl := f 5 1
  { job := f 8 4, step := f 0xC 4, partition := f 0x10 2, unsynced := fl.testBit 1, late := fl.testBit 2
    injected := fl.testBit 3, cut := fl.testBit 5, expected := f 0x18 4, reported := f 0x1C 4, first := f 0x20 8
    last := f 0x28 8, lateRecords := f 0x30 4, missingNodes := f 0x34 4, metrics := readMetrics (f 7 1) (bs.drop 0x38) }

/-- Whether a record's last four bytes are the CRC of the rest (R52). -/
def crcOk (bs : List Byte) : Bool :=
  decide (4 ≤ bs.length) && (crc32 (bs.take (bs.length - 4))).toNat == leNat (bs.drop (bs.length - 4))

/-- Whether a metric's RES agrees with its bins (R296). -/
def Metric.resOk (m : Metric) : Bool := (m.bins.map fun e => e.2).sum % 3 == m.res

/-! ### Contexts -/

/-- Lanes whose die is a member of a job (R291). -/
def Agg.membersOf (g : Agg) (job : Nat) : List Nat :=
  (List.range 16).filter fun l => match sget none g.conf.member l with | some (j, _) => j == job | none => false

/-- The children a job expects a sketch of (R297), with their dies. -/
def Agg.childrenOf (g : Agg) (job : Nat) : List (Nat × Nat) :=
  match g.job job with | some j => j.children | none => []

/-- Whether every input a context waits for has come (R292, R297). -/
def Agg.ctxFull (g : Agg) (c : MergeCtx) : Bool :=
  if g.interior then (g.childrenOf c.sk.job).all fun x => c.got.contains x.1
  else (g.membersOf c.sk.job).all fun l => c.got.contains l || !g.laneUp l

/-- The step end of a sketch that closes (R22, R292): the last marker; at a tray closed by CLOSE, CLOSE; at an interior root
that received PARTIAL, the CLOSE that the earliest marker gives, which is the one CLOSE the sketch tells of (log entry 206). -/
def Agg.stepEnd (g : Agg) (c : MergeCtx) (cut : Bool) : Nat :=
  if c.sk.reported = 0 then g.now
  else if g.interior then (if c.sk.cut then c.sk.first + g.part.num 0x105C else c.sk.last)
  else if cut then min g.now c.close else c.sk.last

/-- A context closes (R292, R297): absent dies and children are counted, and its sketch is due. `cut` where it closes
before every expected input has come. -/
def Agg.ctxClose (g : Agg) (c : MergeCtx) (cut : Bool) : Agg :=
  let g := g.onConf fun x => { x with ctxs := x.ctxs.erase c }
  let s := c.sk
  let gone := (g.membersOf s.job).filter fun l => !c.got.contains l
  let lost := (g.childrenOf s.job).filter fun x => !c.got.contains x.1
  let s := if g.interior then
      { s with expected := s.expected + (lost.map fun x => x.2).sum, missingNodes := s.missingNodes + lost.length
               cut := s.cut || !lost.isEmpty }
    else { s with expected := s.reported + gone.length, cut := cut }
  let missing := if g.interior then (lost.map fun x => x.2).sum else gone.length
  let first := match gone with | l :: _ => g.peer l | [] => 0xFFFFFFFF
  let fin := g.stepEnd c cut
  let g := g.onPart fun p =>
    let p := (p.incWrap 0x10B0 1).incBy 0x10B4 missing
    if missing = 0 then p
    else p.raise 1 17 { detail := leBytes 4 s.job ++ leBytes 4 s.step ++ leBytes 4 missing ++ leBytes 4 first }
  let g := g.onPart fun p =>
    let p := p.stageStart 1 (if g.interior then 1 else 0) 0 (s.step % 65536) p.now
    if g.isRoot then p.stageStart 1 2 0 (s.step % 65536) fin else p
  g.onConf fun x => { x with
    merged := x.merged ++ [s]
    closed := x.closed ++ [⟨s.job, s.step, g.now, false⟩]
    lastMerged := sput none x.lastMerged s.job (some s.step) }

/-- Whether work in flight goes on (R41): a FAULTED page holds it. -/
def Agg.mergeRuns (g : Agg) : Bool := g.part.pstate 1 != .faulted

/-- Every context that waits for nothing more closes (R292). -/
def Agg.ctxSettle (g : Agg) : Agg :=
  if g.mergeRuns then (g.conf.ctxs.filter g.ctxFull).foldl (fun g c => g.ctxClose c false) g else g

/-- What a fault held is discarded (R41): the open contexts and the sketches not sent, each counted in CONTEXT_EVICT_COUNT
(log entry 205). -/
def Agg.confDiscard (g : Agg) : Agg :=
  let n := g.conf.ctxs.length + g.conf.merged.length
  let g := g.onPart fun p => (p.incBy 0x10BC n) |> fun p => { p with stages := p.stages.filter fun i => i.page != 1 }
  g.onConf fun x => { x with ctxs := [], merged := [] }

/-- Every open context closes as at CLOSE (DRAIN). -/
def Agg.ctxDrain (g : Agg) : Agg := g.conf.ctxs.foldl (fun g c => g.ctxClose c true) g

/-- Whether contexts open: the page ACTIVE and MERGE_EN set (R317). -/
def Agg.merging (g : Agg) : Bool := g.part.active 1 && g.part.bit 0x1040 0

/-- Whether inputs act on contexts at all: in ACTIVE and DRAINING (R317). -/
def Agg.mergeTakes (g : Agg) : Bool := g.part.active 1 || g.part.pstate 1 == .draining

/-- The oldest open context is closed to make room (R310). -/
def Agg.ctxRoom (g : Agg) : Agg :=
  if g.conf.ctxs.length < 64 then g
  else match g.conf.ctxs with
    | [] => g
    | c :: _ => (g.ctxClose c true).onPart fun p => (p.inc 0x10BC).raise 1 27
        { detail := leBytes 4 c.sk.job ++ leBytes 4 c.sk.step ++ leBytes 4 c.sk.reported }

/-- The open context of a step. -/
def Agg.ctxOf (g : Agg) (job step : Nat) : Option MergeCtx := g.conf.ctxs.find? fun c => c.sk.job == job && c.sk.step == step

/-- A context opened; the answer is the context. -/
def Agg.ctxOpen (g : Agg) (job step partition close : Nat) : MergeCtx × Agg :=
  let g := g.ctxRoom
  let c : MergeCtx := { sk := { job := job, step := step, partition := partition, metrics := g.metrics }, close := close }
  (c, g.onConf fun x => { x with ctxs := x.ctxs ++ [c] })

/-- A context put back, and closed if it is full. -/
def Agg.ctxPut (g : Agg) (old new : MergeCtx) : Agg :=
  let g := g.onConf fun x => { x with ctxs := x.ctxs.map fun c => if c = old then new else c }
  if g.ctxFull new then g.ctxClose new false else g

/-- An input after its context closed (R292, R297): counted, and the first of its step raises AFTER_CLOSE. -/
def Agg.afterClose (g : Agg) (c : ClosedStep) (who : Nat) : Agg :=
  let g := g.onPart fun p => p.inc 0x10B8
  if c.raised then g
  else
    let g := g.onConf fun x => { x with closed := x.closed.map fun y => if y = c then { y with raised := true } else y }
    g.onPart fun p => p.raise 1 18
      { detail := leBytes 4 who ++ leBytes 4 c.step ++ leBytes 4 (min 0xFFFFFFFF (p.now - c.time)) }

/-- CLOSE_EXPIRED (R292, R297): the context whose CLOSE comes first closes. -/
def Agg.closeExpired (g : Agg) (job step : Nat) : Agg :=
  match g.ctxOf job step with
  | none => g
  | some c => if g.mergeRuns then (g.reach c.close).ctxClose c true else g

/-! ### Step records -/

/-- A field of a step record (R290). -/
def srField (bs : List Byte) (i n : Nat) : Nat := leNat ((bs.drop i).take n)

/-- The value a step record gives a metric (R293), `none` where it has none. -/
def Agg.srValue (g : Agg) (l : Nat) (bs : List Byte) (src : Nat) : Option Nat :=
  if src = 0 then (if srField bs 0x18 4 = 0xFFFFFFFF then none else some (srField bs 0x18 4))
  else if src = 1 then some (srField bs 0x10 8)
  else if src ≤ 5 then
    let x := srField bs (0x20 + 4 * (src - 2)) 4
    if x = 0x80000000 then none else some (signed x 32).toNat
  else if src = 6 then
    match sget none g.conf.member l with
    | none => none
    | some (_, t) => match (sget {} g.conf.drift.ents (1024 * l)).score with
      | some (v, at_) => if t ≤ at_ then some v.toNat else none
      | none => none
  else none

/-- A step record merged into the sketch of its context. -/
def Agg.srMerge (g : Agg) (l : Nat) (bs : List Byte) (s : Sketch) : Sketch :=
  let fl := srField bs 5 1
  let t := srField bs 0x10 8
  { s with
    unsynced := s.unsynced || fl.testBit 1
    injected := s.injected || fl.testBit 3
    reported := s.reported + 1
    first := min s.first t
    last := max s.last t
    lateRecords := s.lateRecords + (if fl.testBit 2 || fl.testBit 7 then 1 else 0)
    metrics := s.metrics.map fun m => match g.srValue l bs m.src with
      | some v => m.add v (srField bs 0 4)
      | none => m }

/-- A step record at a tray (R290–R292): rejected on its CRC, merged where its die is a member of its job, counted when its
context has closed. In OFF and FAULTED it is only recorded (R317). -/
def Agg.stepRecord (g : Agg) (l : Nat) (bs : List Byte) : Agg :=
  let job := srField bs 8 4
  let step := srField bs 0xC 4
  if bs.length ≠ 64 ∨ !crcOk bs ∨ !(g.membersOf job).contains l ∨ !g.mergeTakes then g
  else
    let take (c : MergeCtx) (g : Agg) : Agg :=
      if c.got.contains l then g
      else g.ctxPut c { c with sk := g.srMerge l bs c.sk, got := c.got ++ [l] }
    match g.ctxOf job step with
    | some c => take c g
    | none => match g.conf.closed.find? fun c => c.job == job && c.step == step with
      | some c => g.afterClose c (srField bs 0 4)
      | none =>
        if !g.merging then g
        else
          let (c, g) := g.ctxOpen job step (srField bs 6 2) (srField bs 0x10 8 + g.part.num 0x105C)
          take c g

/-! ### Child sketches -/

/-- A child's sketch merged into a context (R296). -/
def Sketch.merge (a b : Sketch) : Sketch :=
  { a with
    unsynced := a.unsynced || b.unsynced
    late := a.late || b.late
    injected := a.injected || b.injected
    cut := a.cut || b.cut
    expected := a.expected + b.expected
    reported := a.reported + b.reported
    first := min a.first b.first
    last := max a.last b.last
    lateRecords := a.lateRecords + b.lateRecords
    missingNodes := a.missingNodes + b.missingNodes
    metrics := (a.metrics.zip b.metrics).map fun x => x.1.merge x.2 }

/-- The first metric whose RES fails, with the residue its bins give. -/
def Sketch.badRes (s : Sketch) : Option (Nat × Nat × Nat) :=
  (((List.range s.metrics.length).zip s.metrics).find? fun x => !x.2.resOk).map fun x =>
    (x.1, x.2.res, (x.2.bins.map fun e => e.2).sum % 3)

/-- A sketch as an event-log entry (R315). -/
def Agg.sketchLog (g : Agg) (bs : List Byte) : Agg :=
  g.recStore 16 { time := g.now, port := 0xFF, kind := 8, bytes := bs, gdid := leNat (bs.take 4) }

/-- A residue mismatch (R296): RESIDUE with the metric, the residue expected and the one computed, and a rejection counted. -/
def Agg.residueBad (g : Agg) (x : Nat × Nat × Nat) (inj : Bool) : Agg :=
  g.onPart fun p => (p.inc 0x10C0).raise 1 4
    { unit := x.1, injected := inj, detail := leBytes 4 x.1 ++ leBytes 1 x.2.1 ++ leBytes 1 x.2.2 }

/-- The checks of a child's sketch (R296): its CRC, its metric configuration, and each metric's RES. The answer tells whether
it stands. -/
def Agg.sketchCheck (g : Agg) (s : Sketch) (bs : List Byte) : Bool × Agg :=
  if !crcOk bs || s.metrics.map (·.cfg) != g.metrics.map (·.cfg) then
    (false, g.onPart fun p => (p.inc 0x10C0).cmdErr 1 0)
  else
    let (inj, p) := if s.metrics.isEmpty then (false, g.part) else g.part.takeInject 1 4
    let g := { g with part := p }
    let spoiled := (s.metrics.head?).map fun m => (0, m.res, ((m.bins.map fun e => e.2).sum + 1) % 3)
    match if inj then spoiled else s.badRes with
    | some x => (false, g.residueBad x inj)
    | none => (true, g)

/-- A child's sketch complete (R296, R297): recorded, checked, and merged or rejected whole. One of a job that is not tracked,
or of a node that is no child of the job, is checked and goes no further. -/
def Agg.sketchReceive (g : Agg) (node : Nat) (bs : List Byte) : Agg :=
  let g := g.sketchLog bs
  if !g.mergeTakes then g
  else
    let s := readSketch bs
    let (ok, g) := g.sketchCheck s bs
    if (g.childrenOf s.job).all fun x => x.1 != node then g
    else
      let dies := ((g.childrenOf s.job).filter fun x => x.1 == node).map (·.2) |>.sum
      let add (a : Sketch) : Sketch :=
        if ok then a.merge s else { a with expected := a.expected + dies, missingNodes := a.missingNodes + 1 }
      let take (c : MergeCtx) (g : Agg) : Agg :=
        if c.got.contains node then g else g.ctxPut c { c with sk := add c.sk, got := c.got ++ [node] }
      match g.ctxOf s.job s.step with
      | some c => take c g
      | none => match g.conf.closed.find? fun c => c.job == s.job && c.step == s.step with
        | some c => g.afterClose c node
        | none =>
          if !g.merging then g
          else
            let (c, g) := g.ctxOpen s.job s.step s.partition (g.now + g.part.num 0x105C)
            take c g

/-- The bytes of a sketch whose segments cover it, in order of OFFSET (R311). -/
def joined (total : Nat) : Nat → Nat → List (Nat × List Byte) → Option (List Byte)
  | 0, _, _ => none
  | f + 1, at_, ps =>
    if at_ = total then some []
    else match ps.find? fun x => x.1 == at_ && !x.2.isEmpty with
    | some x => (joined total f (at_ + x.2.length) ps).map fun bs => x.2 ++ bs
    | none => none

/-- A segment of a child's sketch (R311): kept by OFFSET until the sketch is whole. One that does not go with the segments
kept, by its TOTAL or because its OFFSET is there, begins another sketch, and what was kept is missing for good. Where the 32
children of R15 are taken, a segment from any other node is a child beyond the limit: refused with TOPOLOGY. -/
def Agg.sketchPart (g : Agg) (node off total : Nat) (bs : List Byte) : Agg :=
  if g.interior && g.children.length == 32 && !(g.children.any fun c => c.2 == node) &&
      !(g.conf.jobs.any fun j => j.children.any fun x => x.1 == node) then
    g.onPart fun p => p.raise 1 16 { detail := [1] ++ leBytes 4 node }
  else
    let z := sget {} g.conf.sketchParts node
    let kept := if z.total = total ∧ z.parts.all (fun x => x.1 != off) then z.parts else []
    let ps := kept ++ [(off, bs)]
    match joined total (ps.length + 1) 0 ps with
    | some all => (g.onConf fun c => { c with sketchParts := sput {} c.sketchParts node {} }).sketchReceive node all
    | none => g.onConf fun c => { c with sketchParts := sput {} c.sketchParts node { total := total, parts := ps } }

/-! ### Stragglers -/

/-- MASK of a straggler history entry (R318). -/
def Agg.stragMask (g : Agg) (i : Nat) : Nat := Mem.rdLE g.conf.strag (8 * i + 4) 2

/-- MASK of an entry set. -/
def Agg.setMask (g : Agg) (i m : Nat) : Agg :=
  g.onConf fun c => { c with strag := Mem.wrLE c.strag (8 * i + 4) 2 m }

/-- Set bits of a mask. -/
def bitCount (m : Nat) : Nat := ((List.range 16).filter fun i => m.testBit i).length

/-- The entry a straggler takes (R300): its own, else one whose mask is zero, else the oldest. -/
def Agg.stragEntry (g : Agg) (gdid : Nat) : Nat :=
  match (List.range 256).find? fun i => g.stragMask i != 0 && Mem.rdLE g.conf.strag (8 * i) 4 == gdid with
  | some i => i
  | none => match (List.range 256).find? fun i => g.stragMask i == 0 with
    | some i => i
    | none => (List.range 256).foldl (fun b i =>
        if sget 0 g.conf.stragAge i < sget 0 g.conf.stragAge b then i else b) 0

/-- One straggler of a root sketch taken into the history (R300). -/
def Agg.stragTake (g : Agg) (gdid value step : Nat) : Agg :=
  let i := g.stragEntry gdid
  let known := g.stragMask i != 0 && Mem.rdLE g.conf.strag (8 * i) 4 == gdid
  let g := if known then g.setMask i (g.stragMask i ||| 1)
    else (g.onConf fun c => { c with
      strag := Mem.wrLE c.strag (8 * i) 4 gdid
      stragAge := sput 0 c.stragAge i (c.stragSeq + 1)
      stragSeq := c.stragSeq + 1
      stragTold := sput false c.stragTold i false }).setMask i 1
  if g.part.fld 0x1070 8 5 ≤ bitCount (g.stragMask i) ∧ sget false g.conf.stragTold i = false then
    (g.onConf fun c => { c with stragTold := sput false c.stragTold i true }).onPart fun p => p.raise 1 28
      { detail := leBytes 4 gdid ++ leBytes 2 (g.stragMask i) ++ leBytes 4 (min 0xFFFFFFFF value) ++ leBytes 4 step }
  else g

/-- A root sketch's stragglers of metric 0 (R300): every mask shifts, and the stragglers set bit 0. A mask that has fallen
below STRAG_PERSIST may report again. -/
def Agg.stragStep (g : Agg) (s : Sketch) : Agg :=
  match s.metrics with
  | [] => g
  | m :: _ =>
    let g := (List.range 256).foldl (fun g i =>
      if g.stragMask i = 0 then g else g.setMask i (g.stragMask i * 2 % 65536)) g
    let g := (m.stragglers (g.part.fld 0x1070 0 8) (g.part.num 0x1074)).foldl (fun g x => g.stragTake x.2.2 x.2.1 s.step) g
    (List.range 256).foldl (fun g i =>
      if bitCount (g.stragMask i) < g.part.fld 0x1070 8 5 then
        g.onConf fun c => { c with stragTold := sput false c.stragTold i false } else g) g

/-! ### Sending -/

/-- The segments of a sketch (R311), sent to a node. -/
def Agg.segments (g : Agg) (dest total : Nat) : Nat → Nat → List Byte → Agg
  | 0, _, _ => g
  | f + 1, off, bs =>
    if bs.isEmpty then g
    else (g.ethSend dest (.sketch off total (bs.take 1440))).segments dest total f (off + 1440) (bs.drop 1440)

/-- A bin left out of a sketch (R296): its count, and what the count adds to TOTAL and RES; the sketch counts it as a missing
node. -/
def Sketch.dropBin (s : Sketch) (k b : Nat) : Sketch :=
  { s with
    missingNodes := s.missingNodes + 1
    metrics := ((List.range s.metrics.length).zip s.metrics).map fun x =>
      if x.1 = k then
        let n := sget 0 x.2.bins b
        { x.2 with bins := sput 0 x.2.bins b 0, total := x.2.total - n, res := (x.2.res + 2 * n) % 3 }
      else x.2 }

/-- The first bin of a sketch that holds a count, as metric and bin. -/
def Sketch.firstBin (s : Sketch) : Option (Nat × Nat) :=
  (((List.range s.metrics.length).zip s.metrics).find? fun x => !x.2.bins.isEmpty).map fun x =>
    (x.1, match x.2.bins with | e :: _ => e.1 | [] => 0)

/-- The bin counts read out of the merge memory against their residues (R296): `bad` is the metric and the bin that fails. A
failing bin is handled as a failing child: RESIDUE, a rejection counted, MISSING_NODES, and its count left out (log entry
207). An armed injection makes the first bin fail (R47). -/
def Agg.sketchReadout (g : Agg) (s : Sketch) (bad : Option (Nat × Nat)) : Sketch × Agg :=
  match s.firstBin with
  | none => (s, g)
  | some x0 =>
    let (inj, p) := g.part.takeInject 1 4
    let g := { g with part := p }
    match if inj then some x0 else bad with
    | none => (s, g)
    | some (k, b) =>
      let n := match s.metrics[k]? with | some m => sget 0 m.bins b | none => 0
      if n = 0 then (s, g) else (s.dropBin k b, g.residueBad (k, (n + 1) % 3, n % 3) inj)

/-- SKETCH_SEND (R298, R299): the oldest merge completes and its sketch goes to the parent, or, at the root with its root
block, to the host; `hostNs` is the time until it is in host memory (R377). Past a deadline it is marked LATE. -/
def Agg.sketchSend (g : Agg) (hostNs : Nat) (bad : Option (Nat × Nat)) : Agg :=
  match g.conf.merged with
  | [] => g
  | m :: ms =>
    if !g.mergeRuns then g
    else
      let g := g.onConf fun c => { c with merged := ms }
      let (m, g) := g.sketchReadout m bad
      let (l1, p) := g.part.stageDone 1 (if g.interior then 1 else 0) 0
      let (l2, p) := p.stageDone 1 2 0
      let g := { g with part := p.event 1 }
      let s := { m with late := m.late || l1 || l2 }
      let lvl := if g.interior then 2 else 1
      if g.isRoot then
        let g := g.stragStep s
        let toHost := g.gateOpen && g.part.bit 0x4090 6
        let g := if toHost then (g.onPart fun p => p.stageStart 4 0 0 (s.step % 65536) p.now).reach (g.now + hostNs) else g
        let (l3, p) := g.part.stageDone 4 0 0
        let g := { g with part := p }
        let s := { s with late := s.late || l3 }
        let bs := s.bytes g.nodeId lvl (some (s.rootBlock (g.part.fld 0x1070 0 8) (g.part.num 0x1074)))
        (g.ownRecord { time := g.now, port := 0xFF, kind := 8, bytes := bs, gdid := g.nodeId }).2
      else
        let bs := s.bytes g.nodeId lvl none
        (g.sketchLog bs).segments (g.part.num 0x104C) bs.length (bs.length / 1440 + 1) 0 bs

end Sys2Proof.Machine
end

