-- ==== Sys2Proof/Machine/Drift.lean ====
section
/-! DEFINITION. Drift (R301–R304) and the expulsion budget (R307, R308). -/

namespace Sys2Proof.Machine

/-- The aggregator with its drift state changed. -/
def Agg.onDrift (g : Agg) (f : DriftState → DriftState) : Agg := g.onConf fun c => { c with drift := f c.drift }

/-! ### Entities (R301) -/

/-- The entities of a class: of die ports 0–15, or the tray parts listed. -/
def Agg.entities (g : Agg) (cls : Nat) : List Nat :=
  let per (first n : Nat) : List Nat := ((List.range 16).map fun d => (List.range n).map fun i => 1024 * d + first + i).flatten
  match cls with
  | 0 => per 0 1
  | 1 => per 1 640
  | 2 => per 641 8
  | 3 => per 649 36
  | 4 => (List.range (g.part.fld 0x4C 0 13)).map fun k => 16384 + k
  | _ => []

/-- The port of the die an entity belongs to, where it has one. -/
def Agg.entityDie (g : Agg) (e : Nat) : Option Nat :=
  if e < 16384 then some (e / 1024)
  else match g.chip.parts[e - 16384]? with
    | some p => if p.2.2.2 < 16 then some p.2.2.2 else none
    | none => none

/-! ### Samples (R302) -/

/-- The key of the samples of a source, its SEL and what it is sampled of. -/
def accKey (source sel scope : Nat) : Nat := (source * 65536 + sel % 65536) * 65536 + scope

/-- A sample arrived. -/
def Agg.sample (g : Agg) (source sel scope : Nat) (v : Int) : Agg :=
  if !g.part.bit 0x1040 1 || g.interior then g
  else g.onDrift fun x =>
    let k := accKey source sel scope
    let a := sget {} x.acc k
    let b : DriftAcc := if a.n = 0 then ⟨1, v, v, v, v⟩ else ⟨a.n + 1, v, max a.mx v, min a.mn v, a.sum + v⟩
    { x with acc := sput {} x.acc k b }

/-- The body of the first section of a type in a window record (R113), from byte `i`, within `f` sections. -/
def wrSection (bs : List Byte) (typ : Nat) : Nat → Nat → Option (List Byte)
  | 0, _ => none
  | f + 1, i =>
    let len := leNat ((bs.drop (i + 4)).take 2)
    if leNat ((bs.drop i).take 1) = typ then some ((bs.drop (i + 8)).take (len - 8)) else wrSection bs typ f (i + max 8 len)

/-- The samples a window record of a port brings: scores by slot, health values in the order of their section, and exact
deltas by always-on position. -/
def Agg.windowSamples (g : Agg) (l : Nat) (bs : List Byte) : Agg :=
  let n := leNat ((bs.drop 0x1E).take 1)
  let sect (t : Nat) : List Byte := match wrSection bs t n 0x20 with | some b => b | none => []
  let f (b : List Byte) (i k : Nat) : Nat := leNat ((b.drop i).take k)
  if !g.part.bit 0x1040 1 || !crcOk bs then g
  else
    let sc := sect 4
    let g := (List.range (sc.length / 20)).foldl (fun g i =>
      let v := f sc (20 * i + 8) 4
      if v = 0x80000000 ∨ !(f sc (20 * i + 1) 1).testBit 0 then g else g.sample 1 (f sc (20 * i) 1) l (signed v 32)) g
    let hp := sect 2
    let g := (List.range (hp.length / 2)).foldl (fun g i =>
      let v := f hp (2 * i) 2
      if v = 0x8000 ∨ v = 0 then g else g.sample 2 i l (signed v 16)) g
    let ct := sect 1
    (List.range (ct.length / 4)).foldl (fun g i =>
      let v := f ct (4 * i) 4
      if v < 0x40000000 then g.sample 3 i l v else g) g

/-- The entity a health record of a port names: the engine for the pages of Gauge, else the die (R301). -/
def recEntity (l cls unit : Nat) : Nat :=
  if (cls = 0x09 ∨ cls = 0x0A) ∧ unit < 640 then 1024 * l + 1 + unit else 1024 * l

/-- The samples a health record of a port brings: one more of its fault code, and the level after a LEVEL_CHANGE. -/
def Agg.healthSamples (g : Agg) (l : Nat) (r : HealthRec) : Agg :=
  let e := recEntity l r.cls r.unit
  let g := g.sample 4 r.code e 1
  if r.code = 0x0A14 then g.sample 5 0 e (r.detail.getD 1 0).toNat else g

/-! ### Rules -/

/-- REDUCE (R302): of a count (source 4) there is one sample, the count. -/
def DriftAcc.reduce (a : DriftAcc) (source red : Nat) : Int :=
  if source = 4 then (a.n : Int)
  else match red with
  | 0 => a.last
  | 1 => a.mx
  | 2 => a.mn
  | 3 => a.sum / (a.n : Int)
  | _ => a.sum

/-- The feature word a rule gives an entity (R302). -/
def Agg.ruleWord (g : Agg) (cls f e : Nat) : Nat :=
  let r := (cls * 64 + f) * 8
  let m := g.conf.drift.rules
  let src := Mem.rdLE m r 1
  let sel := Mem.rdLE m (r + 4) 2
  let die := g.entityDie e
  let scope : Option Nat :=
    if 1 ≤ src ∧ src ≤ 3 then die else if src = 4 ∨ src = 5 then some e else if src = 6 ∨ src = 7 then some 0 else none
  match scope with
  | none => 0x8001
  | some s =>
    let a := sget {} g.conf.drift.acc (accKey src (if src = 5 then 0 else sel) s)
    if a.n = 0 then 0x8001
    else
      let v := sar (signed (twos (a.reduce src (Mem.rdLE m (r + 1) 1)) 64) 64) (Mem.rdLE m (r + 2) 1) +
        signed (Mem.rdLE m (r + 6) 2) 16
      if v < 0 then 0 else if 0x7FFF < v then 0x7FFF else v.toNat

/-- Every entity's features set from its rules, and the period's samples spent (R302). -/
def Agg.runRules (g : Agg) : Agg :=
  let ent := (List.range 5).foldl (fun m cls => (g.entities cls).foldl (fun m e =>
    Mem.wrBytes m (e * 128) (((List.range 64).map fun f => leBytes 2 (g.ruleWord cls f e)).flatten)) m) g.conf.drift.entity
  g.onDrift fun x => { x with entity := ent, acc := [] }

/-! ### Models (R303) -/

/-- RESIDENT of a class. -/
def Agg.driftResident (g : Agg) (c : Nat) : Bool := g.part.bit 0x10F4 (16 + c)
/-- The header block in force of a class. -/
def Agg.driftForce (g : Agg) (c : Nat) : Nat := 2 * c + sget 0 g.conf.drift.force c
/-- The header block of its staging side. -/
def Agg.driftStaging (g : Agg) (c : Nat) : Nat := 2 * c + (1 - sget 0 g.conf.drift.force c)

/-- The byte regions of a model: its header block and its trees. -/
def driftRegions (m : Mem) (block : Nat) : List (Nat × Nat) :=
  let h := hdrAt m block
  [(128 * block, 128), (h.treeBase, h.trees * h.slotBytes)]

/-- The checks of validation in table order (R159, R303). -/
def Agg.driftCheck (g : Agg) (c : Nat) : Nat :=
  let m := g.conf.drift.model
  let b := 128 * g.driftStaging c
  let h := hdrAt m (g.driftStaging c)
  let size := h.trees * h.slotBytes
  if Mem.rdBytes m b 4 ≠ [0x45, 0x44, 0x59, 0x31] ∨ Mem.rdLE m (b + 4) 1 ≠ 1 then 1
  else if h.depth < 4 ∨ 10 < h.depth then 2
  else if h.trees < 1 ∨ 8386560 / (5 * 2 ^ h.depth) < h.trees then 2
  else if Mem.rdLE m (b + 0x1C) 4 ≠ 128 + size then 3
  else if h.treeBase % 8 ≠ 0 ∨ h.treeBase < 0x800 ∨ 0x800000 < h.treeBase + size then 4
  else if (List.range 8).any (fun t => g.driftResident t &&
      (driftRegions m (g.driftForce t)).any fun r => decide (r.1 < h.treeBase + size ∧ h.treeBase < r.1 + r.2)) then 5
  else if h.nfeat < 1 ∨ 64 < h.nfeat ∨ (badNode m h).isSome then 6
  else if (badReserved m b h).isSome then 7
  else if h.flags.testBit 1 || (h.flags.testBit 2 && decide (639 < h.engine ∧ h.engine ≠ 0xFFFF)) then 8
  else if Mem.rdLE m (b + 0x14) 4 = 0x80000000 then 9
  else if (crc32 (Mem.rdBytes m b 0x7C ++ Mem.rdBytes m h.treeBase size)).toNat ≠ Mem.rdLE m (b + 0x7C) 4 then 10
  else 0

/-- MODEL_CTL.VALIDATE of a class (R303). A PROGRAM_ID other than RULE_GEN fails too; no code is stated for it: free. -/
def Agg.modelValidate (g : Agg) (c : Nat) : Agg :=
  let e := g.driftCheck c
  let prog := (hdrAt g.conf.drift.model (g.driftStaging c)).prog
  let ok := e == 0 && prog == g.part.num 0x107C
  let (e, g) := if e = 0 ∧ !ok then
      let (a, p) := g.part.draw32
      (a.toNat % 256, { g with part := p })
    else (e, g)
  (g.onPart fun p => p.setFld 0x10F4 8 8 e).onDrift fun x =>
    { x with staged := sput false x.staged c ok, armed := sput false x.armed c false }

/-- MODEL_CTL.SWAP_ARM of a class (R303); without a validated staging side it is refused. -/
def Agg.modelArm (g : Agg) (c : Nat) (w : W32) : Agg :=
  if sget false g.conf.drift.staged c then g.onDrift fun x => { x with armed := sput false x.armed c true }
  else g.onPart fun p => p.accessErr 1 0x10F4 w true

/-- The armed models come into force at a drift period (R303); their entities' alarm machines take SWAP (R155). -/
def Agg.driftSwap (g : Agg) : Agg :=
  (List.range 8).foldl (fun g c =>
    if sget false g.conf.drift.armed c then
      let es := g.entities c
      (g.onDrift fun x => { x with
        force := sput 0 x.force c (1 - sget 0 x.force c)
        staged := sput false x.staged c false
        armed := sput false x.armed c false
        ents := es.foldl (fun m e => sput {} m e { sget {} m e with raised := false, run := 0 }) x.ents }).onPart fun p =>
          p.setBit 0x10F4 (16 + c) true
    else g) g

/-! ### The expulsion budget (R307, R308) -/

/-- The budget slot of a partition, as its byte address. -/
def Agg.budgetSlot (g : Agg) (part : Nat) : Option Nat :=
  ((List.range 256).map fun i => 128 * i).find? fun a =>
    (Mem.rdLE g.conf.budget (a + 2) 2).testBit 0 && Mem.rdLE g.conf.budget a 2 == part

/-- USED of a slot. -/
def Agg.budgetUsed (g : Agg) (a : Nat) : Nat := ((List.range 60).map fun i => Mem.rdLE g.conf.budget (a + 8 + 2 * i) 2).sum

/-- B of a slot. -/
def Agg.budgetCap (g : Agg) (a : Nat) : Nat :=
  let ppm := g.part.fld 0x1080 0 17
  if ppm = 0 then 0 else max 1 (Mem.rdLE g.conf.budget (a + 4) 4 * ppm / 1000000)

/-- OVER of a slot set or cleared. -/
def Agg.setOver (g : Agg) (a : Nat) (b : Bool) : Agg :=
  let f := Mem.rdLE g.conf.budget (a + 2) 2
  g.onConf fun c => { c with budget := Mem.wrLE c.budget (a + 2) 2 (f - bitsOf f 1 1 * 2 + 2 * b2n b) }

/-- The minute a time falls in, as a bucket number. -/
def bucketOf (ns : Nat) : Nat := ns / 60000000000 % 60

/-- A request judged by the budget holder (R307): RESULT 1 GRANT or 2 DOWNGRADE, and CAUSE. -/
def Agg.budgetJudge (g : Agg) (gdid part : Nat) : Nat × Nat × Agg :=
  let down (g : Agg) (cause used cap : Nat) : Nat × Nat × Agg :=
    (2, cause, g.onPart fun p => (p.inc 0x10CC).raiseEach 1 22
      { detail := leBytes 4 gdid ++ leBytes 2 part ++ leBytes 2 used ++ leBytes 2 cap ++ leBytes 1 cause })
  match g.budgetSlot part with
  | none => down g 3 0 0
  | some a =>
    let used := g.budgetUsed a
    let cap := g.budgetCap a
    if (Mem.rdLE g.conf.budget (a + 2) 2).testBit 1 then down g 2 used cap
    else if cap ≤ used then down (g.setOver a true) 1 used cap
    else
      let k := a + 8 + 2 * bucketOf g.now
      let g := g.onConf fun c => { c with budget := Mem.wrLE c.budget k 2 (Mem.rdLE c.budget k 2 + 1) }
      (1, 0, g.onPart fun p => p.raiseEach 1 21
        { detail := leBytes 4 gdid ++ leBytes 2 part ++ leBytes 2 (used + 1) ++ leBytes 2 cap })

/-- BUDGET_MINUTE (R307, R308): the oldest bucket of every entry is zeroed, and OVER clears at three quarters of B. -/
def Agg.budgetMinute (g : Agg) : Agg :=
  let g := g.reach ((g.now / 60000000000 + 1) * 60000000000)
  (List.range 256).foldl (fun g i =>
    let a := 128 * i
    if !(Mem.rdLE g.conf.budget (a + 2) 2).testBit 0 then g
    else
      let g := g.onConf fun c => { c with budget := Mem.wrLE c.budget (a + 8 + 2 * bucketOf g.now) 2 0 }
      if g.budgetUsed a ≤ 3 * g.budgetCap a / 4 then g.setOver a false else g) g

/-- A recommendation on a die of the tray (R307): GRANT sets EXPEL_REC, DOWNGRADE OBSERVE. -/
def Agg.expelAnswer (g : Agg) (gdid result : Nat) : Agg :=
  match (List.range 16).find? fun l => g.peer l == gdid with
  | none => g
  | some l =>
    let g := g.onConf fun c => { c with drift := { c.drift with askedAt := sput 0 c.drift.askedAt l g.now } }
    g.onPart fun p => p.setBit (dieState l) (if result = 1 then 5 else 6) true

/-- Whether this aggregator holds the budget (R307). -/
def Agg.holdsBudget (g : Agg) : Bool :=
  let n := g.part.num 0x1084
  if n = 0xFFFFFFFF then g.isRoot else n == g.nodeId

/-- An EXPEL_REQ for a die of the tray (R304, R307). -/
def Agg.expelAsk (g : Agg) (l entity : Nat) (score : Int) : Agg :=
  let gdid := g.peer l
  let part := g.rPartition gdid
  if g.holdsBudget then
    let (r, _, g) := g.budgetJudge gdid part
    g.expelAnswer gdid r
  else
    (g.onDrift fun x => { x with askedAt := sput 0 x.askedAt l g.now }).ethSend (g.part.num 0x1084)
      (.expelReq gdid part entity (twos score 32))

/-- EXPEL_RETRY (R304): a die in OBSERVE with an entity still in DRIFT is asked for again after 600 s. -/
def Agg.expelRetry (g : Agg) (l : Nat) : Agg :=
  let es := ((List.range 5).map g.entities).flatten.filter fun e => g.entityDie e == some l
  match es.find? fun e => (sget {} g.conf.drift.ents e).raised with
  | none => g
  | some e =>
    if !g.part.bit (dieState l) 6 || g.part.bit (dieState l) 5 then g
    else
      let sc := match (sget {} g.conf.drift.ents e).score with | some (v, _) => v | none => 0
      (g.reach (sget 0 g.conf.drift.askedAt l + 600000000000)).expelAsk l e sc

/-! ### Scoring -/

/-- An entity enters DRIFT (R304). -/
def Agg.driftEnter (g : Agg) (cls e : Nat) (h : ModelHdr) (score : Int) : Agg :=
  let die := g.entityDie e
  let gdid := match die with | some l => g.peer l | none => 0xFFFFFFFF
  let g := g.onPart fun p => p.raise 1 20
    { late := g.conf.drift.late
      detail := leBytes 4 e ++ leBytes 1 cls ++ leBytes 4 (twos score 32) ++ leBytes 4 gdid }
  match die with
  | none => g
  | some l =>
    let g := if h.flags.testBit 2 && cls == 1 then
        g.onLane l fun p s => strictPut p s (some l) 1 2048
          { typ := 7, len := 8, body := .selftestReq (e % 1024 - 1) 0, enq := p.t }
      else g
    if g.part.bit (dieState l) 5 || g.part.bit (dieState l) 6 then g else g.expelAsk l e score

/-- One entity scored and its alarm machine run (R303, R304). -/
def Agg.scoreEntity (g : Agg) (cls : Nat) (h : ModelHdr) (e : Nat) : Agg :=
  let m := g.conf.drift.entity
  let ws := (List.range 64).map fun f => Mem.rdLE m (e * 128 + 2 * f) 2
  let (acc, res, sat) := modelSum g.conf.drift.model h ws 64
  let x := sget {} g.conf.drift.ents e
  let bad := !sat && decide ((acc % 7).toNat ≠ res)
  let outside := h.flags.testBit 0 && decide (h.alarmHi < acc)
  let x' : EntityState :=
    if bad then x
    else if x.raised then
      (if outside then { x with run := 0 } else if h.alarmOff ≤ x.run + 1 then { x with raised := false, run := 0 }
       else { x with run := x.run + 1 })
    else if !outside then { x with run := 0 }
    else if h.alarmOn ≤ x.run + 1 then { x with raised := true, run := 0 } else { x with run := x.run + 1 }
  let x' := { x' with score := some (acc, g.now) }
  let g := g.onDrift fun d => { d with ents := sput {} d.ents e x' }
  if x'.raised && !x.raised then g.driftEnter cls e h acc else g

/-- A drift period's work begins (R302, R303). -/
def Agg.driftBegin (g : Agg) : Agg :=
  let g := g.driftSwap.runRules
  g.onDrift fun x => { x with scoring := (List.range 8).any g.driftResident, late := false }

/-- DRIFT_PERIOD (R302, R303): a period that finds the last one's scoring unfinished makes it LATE and waits behind it. -/
def Agg.driftPeriod (g : Agg) : Agg :=
  if !g.part.bit 0x1040 1 || g.interior then g
  else
    let n := g.part.num 0x1078 * 1000000
    let g := g.reach ((g.now / n + 1) * n)
    if g.conf.drift.scoring then g.onDrift fun x => { x with late := true, waiting := x.waiting + 1 } else g.driftBegin

/-- DRIFT_SCORING_DONE (R303, R304). -/
def Agg.driftDone (g : Agg) : Agg :=
  if !g.conf.drift.scoring then g
  else
    let g := (List.range 8).foldl (fun g c =>
      if g.driftResident c then
        (g.entities c).foldl (fun g e => g.scoreEntity c (hdrAt g.conf.drift.model (g.driftForce c)) e) g
      else g) g
    let g := g.onDrift fun x => { x with scoring := false, late := false }
    if g.conf.drift.waiting = 0 then g
    else (g.onDrift fun x => { x with waiting := x.waiting - 1 }).driftBegin

end Sys2Proof.Machine
end

