-- ==== Sys2Proof/Machine/AggEcho.lean ====
section
/-! DEFINITION. Bore events at the aggregator (R225–R229, R385): the vote over a pair's copies, the stamp, the echo and the
relay, acknowledgements taken from dies, and relay frames from other trays. -/

namespace Sys2Proof.Machine

/-- The event two of the copies agree on (R220), the copies' CRC failures counting as absent. -/
def majority (copies : List (Option BoreEvent)) : Option BoreEvent :=
  let cs := (copies.take 3).filterMap id
  cs.find? fun e => decide (2 ≤ (cs.filter fun x => x == e).length)

/-- The lanes of a pair position that carried a valid block (R305), as a mask. -/
def copyMask (copies : List (Option PairFrame)) : Nat :=
  (((List.range 3).zip copies).map fun x => if x.2.any PairFrame.ok then 2 ^ x.1 else 0).sum

/-- The copies taken from the three lanes of a pair position (R222): a frame whose START, CRC or COPY is wrong is absent, and
a gap in LINK_SEQ is a disagreement of its copy. The aggregator has no register for its count of them (log entry 197). -/
def Agg.boreTake (g : Agg) (pos : Nat) (copies : List (Option PairFrame)) : List (Option BoreEvent) × Agg :=
  ((List.range 3).zip copies).foldl (fun (x : List (Option BoreEvent) × Agg) c =>
    match c.2 with
    | none => (x.1 ++ [none], x.2)
    | some f =>
      if !f.ok then (x.1 ++ [none], x.2)
      else
        let k := 3 * pos + c.1
        let g := x.2
        let gap := (match sget none g.boreRx k with | some w => w != f.seq | none => false) || f.field != c.1
        let g := { g with
          boreRx := sput none g.boreRx k (some ((f.seq + 1) % 65536))
          boreGaps := if gap then sput 0 g.boreGaps k (sget 0 g.boreGaps k + 1) else g.boreGaps }
        (x.1 ++ [if f.field = c.1 then some f.body else none], g)) ([], g)

/-- The lanes an event goes down within this tray: every member of its partition, or the one addressed (R225, R385). -/
def Agg.echoLanes (g : Agg) (e : BoreEvent) : List Nat :=
  let ls := maskLanes (g.fMask e.partition)
  if e.dest = 0xFFFFFFFF then ls
  else if g.rLocal e.dest then ls.filter fun l => l == g.rPort e.dest else []

/-- The stamp of R226: a broadcast event of scope PARTITION without a time gets the present time, rounded up, and the relay
lead, when its partition has members outside the tray. -/
def Agg.stampEvent (g : Agg) (e : BoreEvent) : BoreEvent :=
  if e.exec = 0 ∧ e.scope % 4 = 2 ∧ e.dest = 0xFFFFFFFF ∧ g.fRemote e.partition then
    { e with
      exec := g.now + (if g.part.time.frac = 0 then 0 else 1) + g.part.num 0x4044
      scope := e.scope - (if e.scope.testBit 3 then 8 else 0) + 8 }
  else e

/-- An event to be passed on (R225, R385): echoed in the tray, and relayed, where its fence says so, when its scope is
PARTITION or it is addressed to a die beyond the tray. One addressed to a GDID that has no VALID route is not delivered and
is counted as unroutable (R18); as its source, for which R390 has no code, it reports 1, a command (log entry 106). -/
def Agg.echo (g : Agg) (e : BoreEvent) : Agg :=
  let e := g.stampEvent e
  if e.dest ≠ 0xFFFFFFFF ∧ !g.routed e.dest then g.unroutable e.dest 1
  else
    let g := (g.jobsAbort e).boreAll (g.echoLanes e) e
    let away := if e.dest = 0xFFFFFFFF then e.scope % 4 == 2 else !g.rLocal e.dest
    if away && g.fRemote e.partition then g.ethSend (g.fGroup e.partition) (.event (g.fGroup e.partition) e) else g

/-- An EVENT_ACK taken from a die (R229): set beside the note of the same event (R305) and counted toward the broadcast it
answers (R312). -/
def Agg.ackTake (g : Agg) (l : Nat) (e : BoreEvent) : Agg :=
  (g.pathTold 1 l (e.arg0 % 65536) e.arg1 e.qual).ackCount l (e.arg0 % 65536) (e.arg0 / 65536 % 256) e.arg1 e.qual

/-- Copies of an event on a port's pairs or on the up port (R220, R225, R385). An event of the up port is the aggregator's
own (R222). The lanes carry nothing while REF156 is lost (R443). -/
def Agg.boreIn (g : Agg) (src : BoreFrom) (frames : List (Option PairFrame)) : Agg :=
  match src with
  | .die l =>
    if g.interior || g.part.disc.refLoss then g
    else
      let (copies, g) := g.boreTake l.val frames
      let g := g.boreAlive l.val (copyMask frames)
      match majority copies with
      | none => g
      | some e =>
        if e.typ = 15 then g.ackTake l.val e
        else if e.scope % 4 = 0 then g
        else if !g.fValid e.partition then g.fenceDrop e 1
        else if !(g.fMask e.partition).testBit l.val then g.fenceDrop e 4
        else g.echo e
  | .up =>
    if g.part.disc.refLoss then g
    else
      let (copies, g) := g.boreTake 16 frames
      match majority copies with
      | none => g
      | some e =>
        let e := { e with source := g.nodeId, scope := e.scope - (if e.scope.testBit 4 then 16 else 0) + 16 }
        if e.scope % 4 = 0 then g
        else if !g.fValid e.partition then g.fenceDrop e 1 else g.echo e

/-- RELAY_FRAME_RECEIVE (R227, R385): admitted through the fence, echoed to the tray's dies of the partition, never relayed
again. -/
def Agg.relayIn (g : Agg) (h : EthHdr) (group : Nat) (e : BoreEvent) : Agg :=
  let (ok, g) := g.treeIn h (.event group e)
  if !ok then g
  else if !g.fValid e.partition || !(g.fFlags e.partition).testBit 2 then g.fenceDrop e 1
  else if !(g.fTypes e.partition).testBit e.typ then g.fenceDrop e 2
  else if g.fGroup e.partition ≠ group then g.fenceDrop e 3
  else if g.interior then g.jobsAbort e
  else if e.dest ≠ 0xFFFFFFFF ∧ !g.routed e.dest then g.unroutable e.dest 1
  else (g.jobsAbort e).boreAll (g.echoLanes e) e

/-! ### The path comparison in time -/

/-- ALIVE_EXPIRED (R305): DISPUTE_SILENT_NS without a cell, or without a block on one Bore receive lane. -/
def Agg.aliveExpired (g : Agg) (l : Nat) (w : PathLoss) : Agg :=
  let silent := g.part.num 0x1088
  match w with
  | .data => (g.reach (sget 0 g.conf.cellAt l + silent)).aliveSet l false
  | .bore c => ((g.reach (sget 0 g.conf.boreAt (3 * l + c.val) + silent)).onConf fun x => { x with
      boreLive := sput 0 x.boreLive l (sget 0 x.boreLive l - (if (sget 0 x.boreLive l).testBit c.val then 2 ^ c.val else 0)) }).mgmtCheck l

/-- DISAGREE_EXPIRED (R305): the indications have differed for DISAGREE_NS. -/
def Agg.disagree (g : Agg) (l : Nat) : Agg :=
  match sget none g.conf.differSince l with
  | none => g
  | some t =>
    let g := g.reach (t + g.part.num 0x108C)
    if g.pathsDiffer l then g.disputeRaise l (if g.part.bit (dieState l) 1 then 2 else 1) else g

/-- DIE_STATE.DISPUTE_CLR (R306): with the tag in force, the comparison is armed again and the indications are timed
afresh. -/
def Agg.disputeClear (g : Agg) (l tag : Nat) (w : W32) : Agg :=
  if !g.part.bit (dieState l) 3 || g.part.fld (dieState l) 16 16 != tag % 65536 then
    g.onPart fun p => p.accessErr 1 (dieState l) w true
  else
    let g := g.onPart fun p => p.setBit (dieState l) 3 false
    g.onConf fun c => { c with differSince := sput none c.differSince l (if g.pathsDiffer l then some g.now else none) }

/-- DIE_STATE.REC_CLR (R308). -/
def Agg.recClear (g : Agg) (l : Nat) : Agg :=
  g.onPart fun p => (p.setBit (dieState l) 5 false).setBit (dieState l) 6 false

end Sys2Proof.Machine
end

