-- ==== Sys2Proof/Machine/Training.lean ====
section
/-! DEFINITION. The inputs of the Tributary link states (R276) and cell CRC errors (R271), on either end of a lane. -/

namespace Sys2Proof.Machine

/-- A TRAIN cell received (R271, R276): counted, and refused for its LENGTH, its VERSION, or its
ROLE (`roleOk`). In TRAINING it is one half of TRAINED, in UP it is PEER_TRAIN. -/
def trainIn (p : Part) (s : Port) (lane : Option Nat) (h : CellHdr) (roleOk : Bool) (version port id : Nat) : Part × Port :=
  if p.fld (linkBase lane + 0x44) 0 2 = 0 then (p, s)
  else
    let p := rxCount p lane
    if h.len ≠ 8 then (cellRefused p lane 12 h.queue h.len 3, s)
    else if version ≠ 1 ∨ !roleOk then (cellRefused p lane 12 h.queue h.len 4, s)
    else match p.fld (linkBase lane + 0x44) 0 2 with
    | 1 => linkTrained p { s with trainGot := some (port, id) } lane
    | 2 => linkDown p s lane 4
    | _ => (p, s)

/-- A TRAIN cell sent (R276, R286): in TRAINING, after LOCK. -/
def trainSend (p : Part) (s : Port) (lane : Option Nat) (role port id : Nat) : Part × Port :=
  if p.fld (linkBase lane + 0x44) 0 2 = 1 ∧ p.bit (linkBase lane + 0x44) 2 then
    let p := p.inc64 (linkBase lane + 0x60) 1
    let p := match lane with | none => p.event 0x31 | some _ => p
    linkTrained { p with out := p.out ++ [.train lane (trainPayload role port id)] }
      { s with trainSent := min 3 (s.trainSent + 1) } lane
  else (p, s)

/-- LOCK (R276); no lane of the aggregator has lock while REF156 is lost (R443). -/
def linkLock (p : Part) (s : Port) (lane : Option Nat) : Part × Port :=
  if p.fld (linkBase lane + 0x44) 0 2 = 1 ∧ (lane.isSome && p.disc.refLoss) = false then (p.setBit (linkBase lane + 0x44) 2 true, s) else (p, s)

/-- FEC codewords corrected and uncorrectable since they were last counted (table Link registers). -/
def fecCount (p : Part) (lane : Option Nat) (fec : Nat × Nat) : Part :=
  (p.incBy (linkBase lane + 0x58) fec.1).incBy (linkBase lane + 0x5C) fec.2

/-- TIMEOUT (R276): 20 ms in TRAINING. -/
def linkTimeout (p : Part) (s : Port) (lane : Option Nat) : Part × Port :=
  if p.fld (linkBase lane + 0x44) 0 2 = 1 then linkRestart (p.reach (s.trainSince + 20000000)) s lane 6 else (p, s)

/-- A cell whose CRC fails (R271): counted and discarded; ERR_BURST_LIMIT of them within 1 ms is LOSS (R276). -/
def crcErr (p : Part) (s : Port) (lane : Option Nat) : Part × Port :=
  if p.fld (linkBase lane + 0x44) 0 2 = 0 then (p, s)
  else
    let p := (rxCount p lane).inc (linkBase lane + 0x54)
    let ts := s.crcTimes.filter (fun t => decide (p.now < t + 1000000)) ++ [p.now]
    if p.fld (linkBase lane + 0x84) 0 16 ≤ ts.length then linkRestart p { s with crcTimes := [] } lane 3
    else (p, { s with crcTimes := ts })

end Sys2Proof.Machine
end

