-- ==== Sys2Proof/Machine/AggLanes.lean ====
section
/-! DEFINITION. Tributary at the aggregator: lanes going up and down, cells and their checks (R271), reassembly (R272),
record ingress with shedding (R309), the recorder and forwarding (R315, R384), notes (R291), and time exchanges (R59,
R273). -/

namespace Sys2Proof.Machine

/-! ### Lanes -/

/-- A lane has entered UP: its register requests are numbered from 0, its die is to be checked against its route (R397), and
a die whose strap is not its lane raises SLOT_MISMATCH (R395). -/
def Agg.laneCame (g : Agg) (l : Nat) : Agg :=
  let port := g.part.fld (tribAddr l + 0x44) 8 8
  let g := g.onEst fun e => { e with reqSeq := sput 0 e.reqSeq l 0 }
  let g := g.onChip fun c => { c with recheck := sput false c.recheck l true }
  if port = l then g else g.onPart fun p => p.raise 0 19 { unit := l, detail := leBytes 1 l ++ leBytes 1 port }

/-- A lane has left UP: a member's DATA_ALIVE falls (R305), no step waits for it any more (R291), and LINK_DOWN of a member
is a freeze cause (R316). -/
def Agg.laneWent (g : Agg) (l : Nat) : Agg :=
  let member := g.isMember l
  let g := g.aliveSet l false
  let g := g.ctxSettle
  if member then g.freezeCause 3 l else g

/-- A change of a lane end, with what follows from its entering or leaving UP; a cell half sent as UP is left goes back to its
queue or is lost (R276). -/
def Agg.laneAct (g : Agg) (l : Nat) (f : Part → Port → Part × Port) : Agg :=
  let was := g.laneUp l
  let g := g.onLane l f
  let g := if was && !g.laneUp l then g.onLane l fun p s => (cutSending p s (some l)).2 else g
  if was && !g.laneUp l then g.laneWent l else if !was && g.laneUp l then g.laneCame l else g

/-- The identity in the aggregator's TRAIN cells (R395). -/
def Agg.trainId (g : Agg) : Nat := if g.nodeValid then g.nodeId else 0xFFFFFFFE

/-- TRAIN at a lane (R276, R15): a child beyond the limits, or one that is no die, is refused with TOPOLOGY. `refuse`: cause
1 or 2 where the child attaches beyond the limits of R15. A refused child takes no part in broadcasts until it is accepted. -/
def Agg.train (g : Agg) (l : Nat) (h : CellHdr) (role version port id : Nat) (refuse : Option Nat) : Agg :=
  let was := g.part.fld (tribAddr l + 0x44) 0 2
  let cause := match refuse with | some c => c | none => if role = 1 then 3 else 0
  if was ≠ 0 ∧ h.len = 8 ∧ version = 1 ∧ role < 2 ∧ cause ≠ 0 then
    (g.onPart fun p => (rxCount p (some l)).raise 1 16
      { unit := l, detail := leBytes 1 cause ++ leBytes 4 (if role = 0 then l else id) }).onConf fun c =>
        { c with refused := sput false c.refused l true }
  else
    let g := g.laneAct l fun p s => trainIn p s (some l) h (role == 0) version port id
    if g.laneUp l then (g.cellAlive l).onConf fun c => { c with refused := sput false c.refused l false } else g

/-! ### Cells in -/

/-- CELL_REFUSED at a lane. -/
def Agg.refuseCell (g : Agg) (l : Nat) (h : CellHdr) (typ cause : Nat) : Agg :=
  g.onPart fun p => cellRefused p (some l) typ h.queue h.len cause

/-- The record under reassembly on a queue discarded (R272). -/
def Agg.reassembly (g : Agg) (l : Nat) (h : CellHdr) (cause : Nat) : Agg :=
  let s := g.port l
  (g.setPort l { s with partials := sput none s.partials h.queue none }).onPart fun p => p.raise (0x10 + l) 19
    { unit := l, detail := leBytes 1 h.queue ++ leBytes 2 h.cseq ++ leBytes 1 cause }

/-- An upstream cell received (R271): counted, its sequence taken, and refused for its queue, TYPE or LENGTH; a gap inside an
open record discards it (R272). `len` is the LENGTH a fixed payload has. The answer tells whether the cell stands. -/
def Agg.cellIn (g : Agg) (l : Nat) (h : CellHdr) (typ : Nat) (len : Option Nat) : Bool × Agg :=
  if !g.laneUp l then (false, if g.part.fld (tribAddr l + 0x44) 0 2 = 0 then g else g.onPart fun p => rxCount p (some l))
  else
    let g := (g.onPart fun p => rxCount p (some l)).cellAlive l
    if 10 < h.queue then (false, g.refuseCell l h typ 2)
    else
      let s := g.port l
      let gap := sget 0 s.rxSeq h.queue != h.cseq && (sget none s.partials h.queue).isSome
      let g := g.onLane l fun p s => rxCseq p s (some l) h.queue h.cseq
      let g := if gap then g.reassembly l h 3 else g
      match h.badType with
      | some t => (false, g.refuseCell l h t 1)
      | none =>
        if 2048 < h.len ∨ (match len with | some n => decide (h.len ≠ n) | none => false) = true then
          (false, g.refuseCell l h typ 3)
        else (!gap || h.first, g)

/-- A cell that stands acts. -/
def Agg.received (r : Bool × Agg) (f : Agg → Agg) : Agg := if r.1 then f r.2 else r.2

/-- A cell that stands acts, or is refused for a payload field out of its range (R271, R289). -/
def Agg.receivedOk (r : Bool × Agg) (l : Nat) (h : CellHdr) (typ : Nat) (ok : Bool) (f : Agg → Agg) : Agg :=
  Agg.received r fun g => if ok then f g else g.refuseCell l h typ 4

/-! ### Record ingress -/

/-- What the aggregator reads of a die's health record (R51): GDID, UNIT_INSTANCE, class, VERDICT, code and DETAIL. -/
def readHealth (bs : List Byte) : HealthRec :=
  let f (i n : Nat) : Nat := leNat ((bs.drop i).take n)
  { gdid := f 0 4, unit := f 6 2, cls := f 8 1, verdict := f 9 1 / 32 % 4, code := f 10 2, detail := (bs.drop 36).take 20 }

/-- Bytes of a tree frame that carries a record (R227, R378, R384): addresses, tag and EtherType, payload header, body, CRC,
redundancy trailer and FCS. -/
def Agg.recordFrame (g : Agg) (n : Nat) : Nat := 18 + 12 + 8 + n + 4 + (if g.part.bit 0x4100 4 then 6 else 0) + 4

/-- The record ring a kind is subscribed into and its SUB bit in the routing entry (R377, R383). -/
def subOf (kind : Nat) : Nat × Nat := if kind = 3 then (1, 2) else if kind = 2 then (2, 3) else if kind = 1 then (2, 4) else (3, 5)

/-- FWD_COUNT of a route advanced. -/
def Agg.fwdCount (g : Agg) (gdid : Nat) : Agg :=
  g.onEst fun e => { e with route := Mem.wrLE e.route (16 * gdid + 0xC) 4 (Mem.rdLE e.route (16 * gdid + 0xC) 4 + 1) }

/-- A record of a LOCAL die forwarded where its route subscribes its kind (R384). -/
def Agg.forward (g : Agg) (e : RecEntry) : Agg :=
  let (ring, bit) := subOf e.kind
  if !g.rLocal e.gdid || !(g.rFlags e.gdid).testBit bit then g
  else if bit = 5 ∨ g.rSub e.gdid = 0xFFFFFFFF then
    let (ok, g) := g.recRing ring e
    if ok then g.fwdCount e.gdid else g
  else if min (g.part.fld 0x8048 0 14) (g.part.fld 0x9048 0 14) < g.recordFrame e.bytes.length then
    g.onPart fun p => p.inc 0x405C
  else (g.ethSend (g.rSub e.gdid) (.record e.gdid e.kind e.bytes)).fwdCount e.gdid

/-- The recorder ring of a record's TYPE on a port (R315). -/
def recRegion (l typ : Nat) : Option Nat :=
  if typ = 1 then some l else if typ = 2 ∨ typ = 3 ∨ typ = 8 then some 16
  else if typ = 5 ∨ typ = 6 ∨ typ = 7 then some 17 else none

/-- A record stored as received, sampled for Drift, and forwarded; `raw` are its bytes before compression. A lasting verdict
is a freeze cause (R316). -/
def Agg.ingest (g : Agg) (l : Nat) (bs raw : List Byte) : Agg :=
  let typ := (raw.getD 4 0).toNat
  match recRegion l typ with
  | none => g
  | some r =>
    let e : RecEntry := { time := g.now, port := l, kind := typ, bytes := bs, gdid := leNat (raw.take 4)
                          window := if typ = 1 then leNat ((raw.drop 8).take 8) else 0 }
    let g := (g.recStore r e).forward e
    if typ = 1 then g.windowSamples l raw
    else if typ = 3 ∧ raw.length = 64 ∧ crcOk raw then
      let h := readHealth raw
      let g := g.healthSamples l h
      if h.verdict = 2 then g.freezeCause 0 l else g
    else g

/-- A weighted queue is shed at a fill of the staging buffer (R309). -/
def Agg.sheds (g : Agg) (q fill : Nat) : Bool :=
  decide (3 ≤ q) && decide (16777216 / 16 * (8 + g.part.fld 0x109C (4 * (q - 3)) 4) ≤ fill)

/-- A record shed (R309). -/
def Agg.shed (g : Agg) (q fill : Nat) : Agg :=
  let k := sget 0 g.conf.shedSince q + 1
  let told := !wbit (g.part.hdr 1).errStat 23 && !wbit (g.part.hdr 1).errMask 23
  let g := g.onPart fun p => (p.inc (0x10D0 + 4 * (q - 3))).raise 1 23
    { detail := leBytes 1 (q - 3) ++ leBytes 4 k ++ leBytes 1 (fill * 100 / 16777216) }
  g.onConf fun c => { c with shedSince := sput 0 c.shedSince q (if told then 0 else k) }

/-- A complete record (R291, R309): the merge's copy of a step record first, then staging, at its present fill in bytes. -/
def Agg.recordDone (g : Agg) (l q : Nat) (comp : Bool) (bs : List Byte) (fill : Nat) : Agg :=
  match (if comp then decodeBlock bs else some bs) with
  | none => g
  | some raw =>
    let g := if (raw.getD 4 0).toNat = 2 then g.stepRecord l raw else g
    if g.sheds q fill then g.shed q fill else g.ingest l bs raw

/-- RECORD_CELL (R272): reassembled per queue. -/
def Agg.recordCell (g : Agg) (l : Nat) (h : CellHdr) (bs : List Byte) (fill : Nat) : Agg :=
  Agg.received (g.cellIn l h 1 none) fun g =>
    let s := g.port l
    let open_ := sget none s.partials h.queue
    let take (g : Agg) (sofar : List Byte) (comp : Bool) : Agg :=
      if 65536 < sofar.length then g.reassembly l h 4
      else
        let s := g.port l
        if h.last then (g.setPort l { s with partials := sput none s.partials h.queue none }).recordDone l h.queue comp sofar fill
        else g.setPort l { s with partials := sput none s.partials h.queue (some (sofar, 0, comp)) }
    match open_ with
    | none => if h.first then take g bs h.compressed else g.reassembly l h 1
    | some (sofar, _, comp) => if h.first then take (g.reassembly l h 2) bs h.compressed else take g (sofar ++ bs) comp

/-! ### Notes -/

/-- A port's die joins a job (R291). -/
def Agg.join (g : Agg) (l job : Nat) : Agg :=
  let g := g.onConf fun c => { c with member := sput none c.member l (some (job, g.now)) }
  let g := g.onPart fun p => p.setBit (dieState l) 0 true
  (g.aliveSet l true).ctxSettle

/-- A port's die leaves its job (R291): its indications are kept no longer (R305). -/
def Agg.leave (g : Agg) (l : Nat) : Agg :=
  let g := g.onConf fun c => { c with
    member := sput none c.member l none
    differSince := sput none c.differSince l none
    told := c.told.filter fun x => x.2.1 != l }
  (g.onPart fun p => p.setFld (dieState l) 0 3 0).ctxSettle

/-- BORE_NOTE (R272, R291): recorded, an executed JOB_START or JOB_ABORT changes membership, an executed STOP is a freeze
cause, and a timed event's note is set beside its acknowledgement (R305). The entry's kind is stated nowhere: a free value. -/
def Agg.boreNote (g : Agg) (l : Nat) (h : CellHdr) (e : BoreEvent) (time status : Nat) : Agg :=
  Agg.receivedOk (g.cellIn l h 5 (some 48)) l h 5 (status % 128 < 6) fun g =>
    let (k, p) := g.part.draw32
    let g := { g with part := p }
    let g := g.recStore 16
      { time := g.now, port := l, kind := k.toNat % 256, gdid := g.peer l
        bytes := e.bytes ++ leBytes 8 time ++ leBytes 1 status ++ [0, 0, 0, 0, 0, 0, 0] }
    let done := status % 128 = 0 ∨ status % 128 = 5
    let g := if done ∧ e.typ = 7 then
        (if (sget none g.conf.member l).isSome && (sget none g.conf.member l).map (fun x => x.1) != some e.arg0 then g.leave l
         else g).join l e.arg0
      else if done ∧ e.typ = 8 then g.leave l
      else g
    let g := if done ∧ e.typ = 1 then g.freezeCause 2 l else g
    if e.exec ≠ 0 then g.pathTold 0 l e.seq e.source status else g

/-- STEP_RECORD_RECEIVE (R291, R292): the merge's copy of a step record. -/
def Agg.stepReceive (g : Agg) (l : Nat) (bs : List Byte) : Agg := g.stepRecord l bs

/-! ### Time -/

/-- EXCHANGE_START (R59): at a 1 ms multiple of its time the aggregator sends TIME_SYNC on every lane that is UP. -/
def Agg.exchangeStart (g : Agg) : Agg :=
  let g := g.reach ((g.now + 999999) / 1000000 * 1000000)
  let x := g.exch
  let g := { g with exch := (x + 1) % 4294967296 }
  (List.range 16).foldl (fun g l => g.onLane l fun p s => putS0 p s (some l)
    { typ := 2, len := 24, body := .timeSync x 0, enq := p.t }) g

/-- TIME_DELAY (R59, R273): t4 is stamped and returned in TIME_RESP; one of an exchange that is over is not answered. -/
def Agg.timeDelay (g : Agg) (l : Nat) (h : CellHdr) (exch : Nat) : Agg :=
  Agg.received (g.cellIn l h 3 (some 24)) fun g =>
    if (exch + 1) % 4294967296 = g.exch then
      g.onLane l fun p s => putS0 p s (some l)
        { typ := 4, len := 24, body := .timeResp exch (p.t / 65536), enq := p.t }
    else g

/-- CELL_SEND of a lane (R279); a downstream cell with a word that was not correctable is lost. -/
def Agg.cellSend (g : Agg) (l resid : Nat) (ecc : Ecc) : Agg := g.onLane l fun p s => (sendCell p s (some l) resid ecc).2

end Sys2Proof.Machine
end

