-- ==== Sys2Proof/Machine/AggRings.lean ====
section
/-! DEFINITION. Command and completion rings (R364–R373): doorbells, fetching, starting, waiting, completions written, held
or discarded, and what a RING page's states do. -/

namespace Sys2Proof.Machine

/-- The page of command ring `i` as a byte offset. -/
def cmdRing (i : Nat) : Nat := (0x40 + i) * 0x1000
/-- The page of completion ring `i` as a byte offset. -/
def cplRing (i : Nat) : Nat := (0x80 + i) * 0x1000
/-- Ring state of a pair. -/
def Agg.ring (g : Agg) (i : Nat) : RingState := sget {} g.est.rings i
/-- Ring state of a pair changed. -/
def Agg.onRing (g : Agg) (i : Nat) (f : RingState → RingState) : Agg :=
  g.onEst fun e => { e with rings := sput {} e.rings i (f (sget {} e.rings i)) }
/-- RUN: 0 IDLE, 1 FETCHING, 2 WAITING, 3 HALTED_CPL, 4 HALTED_FETCH. -/
def Agg.run (g : Agg) (i : Nat) : Nat := g.part.fld (cmdRing i + 0x54) 0 3
/-- RUN set. -/
def Agg.setRun (g : Agg) (i v : Nat) : Agg := g.onPart fun p => p.setFld (cmdRing i + 0x54) 0 3 v
/-- HEAD. -/
def Agg.head (g : Agg) (i : Nat) : Nat := g.part.num (cmdRing i + 0x50)
/-- TAIL. -/
def Agg.tail (g : Agg) (i : Nat) : Nat := g.part.num (cmdRing i + 0x4C)
/-- A command page ACTIVE. -/
def Agg.ringActive (g : Agg) (i : Nat) : Bool := g.part.active (0x40 + i)
/-- Descriptors of a ring that hold an in-flight entry. -/
def RingState.entries (r : RingState) : Nat := r.flight.length + r.held.length
/-- Descriptors in flight on all rings (R367). -/
def Agg.inflight (g : Agg) : Nat := (g.est.rings.map fun x => x.2.entries).sum
/-- Overflow slots a ring holds. -/
def Agg.ovfOf (g : Agg) (i : Nat) : Nat := (g.est.ovf.filter fun x => x.1 == i).length

/-- A field of a descriptor (R365). -/
def dget (bs : List Byte) (off n : Nat) : Nat := leNat ((bs.drop off).take n)

/-- Whether a descriptor is MALFORMED (R366). A ring and its place are right by construction. -/
def descBad (bs : List Byte) : Bool :=
  let op := dget bs 0 1
  let fl := dget bs 1 1
  let wait := fl.testBit 1
  let inline := fl.testBit 3
  let n := dget bs 0x20 1
  decide (0xA < op) || decide (32 ≤ fl) || decide (dget bs 2 2 ≠ 0) ||
    (wait && decide (dget bs 8 8 % 8 ≠ 0)) || (!wait && decide (dget bs 8 16 ≠ 0)) ||
    (inline && decide ((op ≠ 2 ∧ op ≠ 3) ∨ 4 < n)) ||
    ((op == 2 || op == 3) && decide (n = 0 ∨ 64 < n ∨ dget bs 0x1C 4 % 4 ≠ 0 ∨ dget bs 0x21 7 ≠ 0)) ||
    (op == 4 && decide (dget bs 0x1C 1 < 1 ∨ 7 < dget bs 0x1C 1 ∨ dget bs 0x1D 3 ≠ 0 ∨ dget bs 0x20 4 % 8 ≠ 0 ∨
      dget bs 0x24 4 % 8 ≠ 0 ∨ dget bs 0x24 4 = 0)) ||
    (op == 5 && decide (2 < dget bs 0x1C 1 ∨ dget bs 0x1D 3 ≠ 0)) ||
    ((op == 6 || op == 7) && decide (dget bs 0x1C 4 < 1 ∨ 4096 < dget bs 0x1C 4)) ||
    (op == 8 && decide (dget bs 0x1A 6 ≠ 0)) ||
    (op == 9 && decide (dget bs 0x18 1 < 1 ∨ 2 < dget bs 0x18 1 ∨ dget bs 0x1A 2 ≠ 0 ∨ dget bs 0x20 8 = 0 ∨
      7 < dget bs 0x19 1 ∨ (dget bs 0x18 1 = 1 ∧ dget bs 0x19 1 ≠ 0)))

/-- A descriptor of FENCE, or SIGNAL, which behaves as one (R367). -/
def descFence (bs : List Byte) : Bool := (dget bs 1 1).testBit 2 || dget bs 0 1 == 1

/-- Whether the descriptor held back may start (R367). -/
def Agg.mayStart (g : Agg) (i : Nat) (b : Blocked) : Bool :=
  let r := g.ring i
  let used := r.entries + g.ovfOf i
  !b.waiting && decide (g.inflight < 1024) && decide (r.entries < g.part.fld (cmdRing i + 0x40) 16 11) &&
    decide ((g.part.num (cplRing i + 0x50) + 4294967296 - g.part.num (cplRing i + 0x4C)) % 4294967296 + used <
      2 ^ g.part.fld (cplRing i + 0x40) 0 5) &&
    (!descFence b.bytes || r.flight.isEmpty) && (g.run i == 1 || g.run i == 3 || b.status == some 11)

/-- The descriptor held back starts if it may (R367), ended already where it has no effect. -/
def Agg.tryStart (g : Agg) (i : Nat) : Agg :=
  match (g.ring i).blocked with
  | none => g
  | some b =>
    if !g.mayStart i b then g
    else
      let st : Option Nat := match b.status with
        | some s => some s
        | none => if descBad b.bytes then some 2 else none
      let d : Desc := { index := b.index, bytes := b.bytes
                        phase := match st with | some s => .finished s 0 0 | none => .fetched }
      let g := g.onRing i fun r => { r with flight := r.flight ++ [d], blocked := none }
      g.onPart fun p => p.setFld 0x4054 16 11 (max (p.fld 0x4054 16 11) g.inflight)

/-- A ring that finds nothing more goes idle (R370). -/
def Agg.ringIdle (g : Agg) (i : Nat) : Agg :=
  if g.run i == 1 && (g.ring i).blocked.isNone && g.head i == g.tail i then
    (g.setRun i 0).onPart fun p => p.setBit (cmdRing i + 0x54) 3 false
  else g

/-- Starts and idling of every ring, as they come about after each command. -/
def Agg.ringSettle (g : Agg) : Agg :=
  (List.range 64).foldl (fun g i =>
    if (g.ring i).blocked.isNone && g.run i != 1 then g else (g.tryStart i).ringIdle i) g

/-! ### Doorbell and fetch -/

/-- DOORBELL (R370): refused where it would name more than the ring holds. -/
def Agg.doorbell (g : Agg) (i : Nat) (w : W32) : Agg :=
  if 2 ^ g.part.fld (cmdRing i + 0x40) 0 5 < (w.toNat + 4294967296 - g.head i) % 4294967296 then
    g.onPart fun p => p.accessErr (0x40 + i) (cmdRing i + 0x4C) w true
  else
    let g := g.onPart fun p => (p.wr (cmdRing i + 0x4C) w).setBit (cmdRing i + 0x54) 3 true
    if g.ringActive i && g.run i == 0 then g.setRun i 1 else g

/-- The address of a ring's descriptor at an index (R364). -/
def Agg.descAddr (g : Agg) (i k : Nat) : Nat :=
  g.part.num64 (cmdRing i + 0x44) + k % 2 ^ g.part.fld (cmdRing i + 0x40) 0 5 * 64

/-- RING_HALTED (R371, R390): `st` 3 or 4, the cause and the host address. -/
def Agg.ringHalt (g : Agg) (i st cause addr : Nat) : Agg :=
  let g := g.setRun i st
  g.onPart fun p => ((p.setNum (cmdRing i + 0x60) cause).setNum64 (cmdRing i + 0x64) addr).raiseEach (0x40 + i) 16
    { detail := leBytes 1 st ++ leBytes 1 cause ++ leBytes 8 addr ++ leBytes 1 (64 - g.est.ovf.length) }

/-- The WAIT value read at the head (R368): met, not met, or a fault that ends the descriptor HOST_READ_ERR. -/
def Agg.waitRead (g : Agg) (i : Nat) (r : HostRead) : Agg :=
  match (g.ring i).blocked with
  | none => g
  | some b =>
    if !b.waiting then g
    else match r with
    | .fault _ => (g.onRing i fun x => { x with blocked := some { b with waiting := false, status := some 3 } }).setRun i 1
    | .data bs =>
      if dget b.bytes 0x10 8 ≤ leNat (bs.take 8) then
        (g.onRing i fun x => { x with blocked := some { b with waiting := false } }).setRun i 1
      else g.setRun i 2

/-- DESCRIPTOR_FETCH (R367, R370, R371): the descriptor at HEAD read, from host memory or, with LOC, from the mailbox area;
`wait` is the first read of its WAIT value. Nothing is fetched while the gate is closed (R337). -/
def Agg.descFetch (g : Agg) (i : Nat) (r wait : HostRead) : Agg :=
  if !g.ringActive i || g.run i != 1 || (g.ring i).blocked.isSome || g.head i == g.tail i || !g.gateOpen then g
  else
    let g := g.onPart fun p => p.setBit (cmdRing i + 0x54) 3 false
    let k := g.head i
    let a := g.descAddr i k
    let r : HostRead := if g.part.bit (cmdRing i + 0x40) 5 then .data (Mem.rdBytes g.chip.dram a 64) else r
    match r with
    | .fault _ => g.ringHalt i 4 2 a
    | .data bs =>
      let bs := padTo 64 bs
      let w := (dget bs 1 1).testBit 1 && !descBad bs
      let g := g.onPart fun p => (p.setNum (cmdRing i + 0x50) (k + 1)).incWrap (cmdRing i + 0x70) 1
      let g := g.onRing i fun x => { x with blocked := some { index := k, bytes := bs, waiting := w, since := g.now } }
      if w then (g.setRun i 1).waitRead i wait else g

/-- WAIT_POLL (R368). -/
def Agg.waitPoll (g : Agg) (i : Nat) (r : HostRead) : Agg :=
  if g.run i = 2 ∧ g.gateOpen = true ∧ g.ringActive i = true then g.waitRead i r else g

/-- WAIT_EXPIRED (R368): the descriptor ends WAIT_TIMEOUT with no effect. -/
def Agg.waitExpired (g : Agg) (i : Nat) : Agg :=
  match (g.ring i).blocked with
  | none => g
  | some b =>
    let t := g.part.num (cmdRing i + 0x5C)
    if g.run i ≠ 2 ∨ !b.waiting ∨ t = 0 ∨ !g.ringActive i then g
    else
      let g := (g.reach (b.since + t * 1000000)).onRing i fun x =>
        { x with blocked := some { b with waiting := false, status := some 4 } }
      (g.setRun i 1).onPart fun p => p.raise (0x40 + i) 17
        { detail := leBytes 4 (dget b.bytes 4 4) ++ leBytes 8 (dget b.bytes 8 8) }

/-! ### Completions -/

/-- A completion entry (R369). -/
def Cpl.bytes (c : Cpl) (ring phase ovf : Nat) : List Byte :=
  leBytes 4 c.tag ++ leBytes 2 c.status ++ leBytes 1 ring ++ leBytes 1 (phase + 2 * ovf) ++ leBytes 4 c.index ++
    leBytes 4 c.r0 ++ leBytes 8 c.r1 ++ leBytes 8 c.time

/-- The vector of a completion ring (R361, R388): held off until HOLDOFF_NS after it last fired. -/
def Agg.cplVector (g : Agg) (i : Nat) : Agg :=
  let due := match (g.ring i).vecAt with
    | some t => decide (t + g.part.fld (cplRing i + 0x40) 16 16 ≤ g.now)
    | none => true
  if due then (g.onRing i fun r => { r with vecAt := some g.now, vecDue := false }).vector (8 + i)
  else g.onRing i fun r => { r with vecDue := true }

/-- Vectors held off whose spacing has passed. -/
def Agg.vectorsDue (g : Agg) : Agg :=
  (List.range 64).foldl (fun g i => if (g.ring i).vecDue then g.cplVector i else g) g

/-- The address of the next completion entry. -/
def Agg.cplAddr (g : Agg) (i : Nat) : Nat :=
  g.part.num64 (cplRing i + 0x44) + g.part.num (cplRing i + 0x50) % 2 ^ g.part.fld (cplRing i + 0x40) 0 5 * 32

/-- A completion written (R369). -/
def Agg.cplWrite (g : Agg) (i : Nat) (c : Cpl) (ovf : Bool) : Agg :=
  let k := g.part.num (cplRing i + 0x50)
  let phase := 1 - k / 2 ^ g.part.fld (cplRing i + 0x40) 0 5 % 2
  let g := g.show (.hostWrite (g.cplAddr i) (c.bytes i phase (b2n ovf)))
  let g := g.onPart fun p => ((p.setNum (cplRing i + 0x50) (k + 1)).event (0x80 + i)).event (0x40 + i)
  if c.irq && g.part.bit (cplRing i + 0x40) 5 then g.cplVector i else g

/-- A completion kept by a halted ring (R372), behind those it holds already. -/
def Agg.cplKeep (g : Agg) (i : Nat) (c : Cpl) : Agg :=
  if g.est.ovf.length < 64 ∧ (g.ring i).held.isEmpty then g.onEst fun e => { e with ovf := e.ovf ++ [(i, c)] }
  else g.onRing i fun r => { r with held := r.held ++ [c] }

/-- A produced completion (R371–R373): discarded while the gate is closed, kept while the ring is halted, written
otherwise; a write that fails halts the ring. `fault`: the write's translation fails (R363). -/
def Agg.cplPut (g : Agg) (i : Nat) (c : Cpl) (fault : Bool) : Agg :=
  if !g.gateOpen then g.onPart fun p => p.inc 0x4064
  else if g.run i = 3 then g.cplKeep i c
  else
    let cause := if !g.part.active (0x80 + i) then 3 else if fault && g.part.bit 0x4040 8 then 1 else 0
    if cause = 0 then g.cplWrite i c false
    else
      let a := g.cplAddr i
      ((g.cplKeep i c).onPart fun p => p.setBit 0x4074 0 true).ringHalt i 3 cause a

/-- The descriptor in flight at an index. -/
def Agg.desc (g : Agg) (i k : Nat) : Option Desc := (g.ring i).flight.find? fun d => d.index == k

/-- A descriptor in flight changed. -/
def Agg.putDesc (g : Agg) (i : Nat) (d : Desc) : Agg :=
  g.onRing i fun r => { r with flight := r.flight.map fun x => if x.index = d.index then d else x }

/-- A descriptor's effect has finished. -/
def Agg.descEnd (g : Agg) (i : Nat) (d : Desc) (status r0 r1 : Nat) : Agg := g.putDesc i { d with phase := .finished status r0 r1 }

/-- The end of a broadcast's descriptor: at T, as R366 states. -/
def Agg.bcastEnd (g : Agg) (i : Nat) (d : Desc) : Agg :=
  match g.conf.bcasts.find? fun b => b.desc == some (i, d.index) with
  | none => g
  | some b =>
    if d.phase ≠ .running then g
    else
      let g := (g.reach b.time).startSplit b.msg.id
      let b := match g.bcast b.msg.id with | some b => b | none => b
      let (x, y, z) := b.totals
      (g.putBcast { b with desc := none }).descEnd i d b.status x (y + 4294967296 * z)

/-- DESCRIPTOR_COMPLETE (R367): a finished effect's completion produced; a FAULTED page holds it (R41). -/
def Agg.descComplete (g : Agg) (i k : Nat) (fault : Bool) : Agg :=
  if g.part.pstate (0x40 + i) = .faulted then g
  else
  let g := match g.desc i k with
    | some d => if dget d.bytes 0 1 = 9 then g.bcastEnd i d else g
    | none => g
  match g.desc i k with
  | none => g
  | some d => match d.phase with
    | .finished st r0 r1 =>
      let c : Cpl := { tag := dget d.bytes 4 4, status := st, index := k, r0 := r0, r1 := r1, time := g.now
                       irq := (dget d.bytes 1 1).testBit 4 }
      let g := g.onRing i fun r => { r with flight := r.flight.erase d }
      let g := g.onPart fun p => p.event 4
      if d.orphan then g.onPart fun p => p.inc 0x4064 else g.cplPut i c fault
    | _ => g

/-- RESUME's writes of the ring's kept completions in order; `ok` of them succeed before a fault. -/
def Agg.resumeWrites (g : Agg) (i : Nat) : Nat → Nat → Agg
  | 0, _ => g
  | f + 1, ok =>
    if ok = 0 then g
    else match g.est.ovf.find? fun x => x.1 == i with
    | some x => ((g.onEst fun e => { e with ovf := e.ovf.erase x }).cplWrite i x.2 true).resumeWrites i f (ok - 1)
    | none => match (g.ring i).held with
      | [] => g
      | c :: _ => ((g.onRing i fun r => { r with held := r.held.drop 1 }).cplWrite i c true).resumeWrites i f (ok - 1)

/-- RING_RESUME (R371, R372): `ok` counts the writes that succeed before a fault, where one faults. -/
def Agg.ringResume (g : Agg) (i : Nat) (ok : Option Nat) (w : W32) : Agg :=
  if !g.ringActive i then g.onPart fun p => p.accessErr (0x40 + i) (cmdRing i + 0x58) w true
  else if g.run i = 4 then g.setRun i 1
  else if g.run i ≠ 3 then g.onPart fun p => p.accessErr (0x40 + i) (cmdRing i + 0x58) w true
  else if !g.gateOpen then g
  else
    let n := g.ovfOf i + (g.ring i).held.length
    let ok := if !g.part.active (0x80 + i) then 0 else match ok with | some k => k | none => n
    let g := g.resumeWrites i n ok
    if g.ovfOf i = 0 ∧ (g.ring i).held.isEmpty then
      (match (g.ring i).blocked with
        | some b => if b.waiting then g.setRun i 2 else g.setRun i 1
        | none => g.setRun i 1)
    else g

/-! ### RING pages -/

/-- A command page enters ACTIVE: a doorbell that stands, or entries left by a drain that an enable followed at once, wake the
fetcher. -/
def Agg.ringRuns (g : Agg) (i : Nat) : Agg :=
  if g.part.bit (cmdRing i + 0x54) 3 || g.head i != g.tail i then g.setRun i 1 else g

/-- A command page drains (R373): the descriptor not started ends FLUSHED. -/
def Agg.ringDrain (g : Agg) (i : Nat) : Agg :=
  g.onRing i fun r => { r with blocked := r.blocked.map fun b => { b with waiting := false, status := some 11 } }

/-- Whether a command page's drain is done (R373). -/
def Agg.ringDrained (g : Agg) (i : Nat) : Bool := (g.ring i).flight.isEmpty && (g.ring i).blocked.isNone

/-- A halted ring's completions discarded and counted (R373). -/
def Agg.cplDiscard (g : Agg) (i : Nat) : Agg :=
  let n := g.ovfOf i + (g.ring i).held.length
  let g := g.onPart fun p => p.incBy 0x4064 n
  (g.onEst fun e => { e with ovf := e.ovf.filter fun x => x.1 != i }).onRing i fun r => { r with held := [] }

/-- A command page drains out of FAULTED (R41): what it holds is discarded and counted, the completions of descriptors in
flight as they come. -/
def Agg.ringDiscard (g : Agg) (i : Nat) : Agg :=
  let g := if (g.ring i).blocked.isSome then
      (g.onPart fun p => p.inc 0x4064).onRing i fun r => { r with blocked := none } else g
  (g.cplDiscard i).onRing i fun r => { r with flight := r.flight.map fun d => { d with orphan := true } }

/-- A command page starts its enable sequence (R371, R373): the run state begins at IDLE, and what a drain that an enable
follows at once left in a halted ring is discarded. -/
def Agg.ringStarts (g : Agg) (i : Nat) : Agg := (g.cplDiscard i).setRun i 0

/-- A completion page reaches OFF (R364). -/
def Agg.cplOff (g : Agg) (i : Nat) : Agg := g.onPart fun p => (p.setNum (cplRing i + 0x4C) 0).setNum (cplRing i + 0x50) 0

/-- A command page reaches OFF (R364, R373). -/
def Agg.ringOff (g : Agg) (i : Nat) : Agg :=
  ((g.cplDiscard i).onPart fun p => ((p.setNum (cmdRing i + 0x4C) 0).setNum (cmdRing i + 0x50) 0).setFld (cmdRing i + 0x54) 0 4 0).cplOff i

/-- Rings reset for Estuary's rings (R338): every RING page drains, indices and bases are zeroed, descriptors in progress go
on without a completion; record rings are disabled and forgotten. -/
def Agg.ringsReset (g : Agg) : Agg :=
  let g := (List.range 64).foldl (fun g i =>
    let g := (g.ringDiscard i).onPart fun p => ((p.drainInput (0x40 + i)).2.drainInput (0x80 + i)).2
    (g.cplOff i).onPart fun p => ((((p.setNum (cmdRing i + 0x4C) 0).setNum (cmdRing i + 0x50) 0).setFld
      (cmdRing i + 0x54) 0 4 0).setNum64 (cmdRing i + 0x44) 0).setNum64 (cplRing i + 0x44) 0) g
  (List.range 4).foldl (fun g r => g.onPart fun p =>
    let b := 0x4080 + 0x20 * r
    ((((p.setBit (b + 0x10) 6 false).setNum (b + 0x14) 0).setNum (b + 0x18) 0).setNum64 b 0).setNum64 (b + 8) 0) g

end Sys2Proof.Machine
end

