-- ==== Sys2Proof/Machine/AggDescs.lean ====
section
/-! DEFINITION. Register and bulk requests of the aggregator (R374, R375, R275), routes and fences (R383–R386), recorder
reads (R376), and the effect of each hardware descriptor (R366). -/

namespace Sys2Proof.Machine

/-- Bytes of host data a descriptor reads: nothing while the gate is closed (R337) or for a ring since reset (R338). -/
def Agg.hostGet (g : Agg) (d : Desc) : HostRead → Option (List Byte)
  | .data bs => if g.gateOpen && !d.orphan then some bs else none
  | .fault _ => none

/-- Bytes a descriptor writes into host memory, under the same conditions. -/
def Agg.hostPut (g : Agg) (d : Desc) (addr : Nat) (bs : List Byte) : Agg :=
  if g.gateOpen && !d.orphan && !bs.isEmpty then g.show (.hostWrite addr bs) else g

/-- A started descriptor of an opcode, its effect still to begin. -/
def Agg.ready (g : Agg) (i k op : Nat) : Option Desc :=
  match g.desc i k with
  | some d => if d.phase = .fetched ∧ dget d.bytes 0 1 = op then some d else none
  | none => none

/-! ### Register requests -/

/-- A REG_REQ cell put on a lane's W0 (R274); `none` where it has no room. -/
def Agg.regCell (g : Agg) (l id op nwords addr : Nat) (data : List W32) : Option Agg :=
  let len := 8 + 4 * data.length
  if (g.port l).room 3 (cellBytes len) then
    let c : Cell := { typ := 8, len := len, body := .regReq id op nwords addr data, enq := g.part.t }
    some (g.setPort l ((g.port l).setQueue 3 ((g.port l).queue 3 ++ [c])))
  else none

/-- A register request issued on a lane with its next REQ_ID (R375). -/
def Agg.regIssue (g : Agg) (l gdid : Nat) (owner : ReqOwner) (op nwords addr : Nat) (data : List W32) (idem : Bool) : Option Agg :=
  let id := sget 0 g.est.reqSeq l
  (g.regCell l id op nwords addr data).map fun g => g.onEst fun e => { e with
    reqSeq := sput 0 e.reqSeq l ((id + 1) % 65536)
    reqs := e.reqs ++ [{ lane := some l, gdid := gdid, id := id, owner := owner, op := op, nwords := nwords, addr := addr
                         data := data, idem := idem, since := g.now }] }

/-- A register request sent to a remote die's node (R374). -/
def Agg.regSendRemote (g : Agg) (gdid : Nat) (owner : ReqOwner) (op nwords addr : Nat) (data : List W32) (idem : Bool) : Agg :=
  let id := sget 0 g.est.reqSeq 16
  let g := g.onEst fun e => { e with
    reqSeq := sput 0 e.reqSeq 16 ((id + 1) % 65536)
    reqs := e.reqs ++ [{ lane := none, gdid := gdid, id := id, owner := owner, op := op, nwords := nwords, addr := addr
                         data := data, idem := idem, since := g.now }] }
  g.ethSend (g.rNode gdid) (.regReq gdid id op nwords addr data)

/-- Words of little-endian bytes. -/
def wordsOf : Nat → List Byte → List W32
  | 0, _ => []
  | n + 1, bs => BitVec.ofNat 32 (leNat (bs.take 4)) :: wordsOf n (bs.drop 4)

/-- A REG_READ or REG_WRITE begun (R374): UNROUTABLE, PORT_DOWN, or issued; without room on the lane it begins later. -/
def Agg.regBegin (g : Agg) (i : Nat) (d : Desc) (op : Nat) (data : List W32) : Agg :=
  let gdid := dget d.bytes 0x18 4
  let n := dget d.bytes 0x20 1
  let a := dget d.bytes 0x1C 4
  let idem := (dget d.bytes 1 1).testBit 0
  if !g.routed gdid then (g.unroutable gdid 1).descEnd i d 5 0 0
  else if g.rLocal gdid then
    if !g.laneUp (g.rPort gdid) then g.descEnd i d 12 0 0
    else match g.regIssue (g.rPort gdid) gdid (.desc i d.index) op n a data idem with
      | none => g
      | some g => g.putDesc i { d with phase := .running }
  else (g.putDesc i { d with phase := .running }).regSendRemote gdid (.desc i d.index) op n a data idem

/-- REG_READ (R374). -/
def Agg.regRead (g : Agg) (i k : Nat) : Agg :=
  match g.ready i k 2 with
  | none => g
  | some d => g.regBegin i d 1 []

/-- REG_WRITE (R374), with inline or host data. -/
def Agg.regWriteDesc (g : Agg) (i k : Nat) (r : HostRead) : Agg :=
  match g.ready i k 3 with
  | none => g
  | some d =>
    let n := dget d.bytes 0x20 1
    if (dget d.bytes 1 1).testBit 3 then g.regBegin i d 2 (wordsOf n (d.bytes.drop 0x28))
    else match g.hostGet d r with
      | none => g.descEnd i d 3 0 0
      | some bs => g.regBegin i d 2 (wordsOf n bs)

/-- A register descriptor's response taken (R366). -/
def Agg.regDone (g : Agg) (i k : Nat) (q : RegOut) (status nwords : Nat) (data : List W32) : Agg :=
  match g.desc i k with
  | none => g
  | some d =>
    let g := if q.op = 1 then g.hostPut d (dget d.bytes 0x28 8) ((data.take nwords).map fun w => leBytes 4 w.toNat).flatten else g
    g.descEnd i d (if status = 0 then 0 else 6) nwords (status % 256 + 256 * (q.tries % 256))

/-- A register request that has its response (R374, R397). -/
def Agg.regAnswer (g : Agg) (q : RegOut) (status nwords : Nat) (data : List W32) : Agg :=
  let g := g.onEst fun e => { e with reqs := e.reqs.erase q }
  match q.owner with
  | .desc i k => g.regDone i k q status nwords data
  | .node n req => g.ethSend n (.regResp req status nwords data)
  | .topology gdid => match q.lane with
    | none => g
    | some l =>
      if status = 0 then
        (g.onPart fun p => p.setNum (tribAddr l + 0x48) gdid).onChip fun c => { c with recheck := sput false c.recheck l false }
      else g

/-- REG_RESP (R375): matched by lane and REQ_ID, or discarded and counted. -/
def Agg.regResp (g : Agg) (l : Nat) (h : CellHdr) (id status nwords : Nat) (data : List W32) : Agg :=
  Agg.receivedOk (g.cellIn l h 9 (some (4 + 4 * data.length))) l h 9 (status < 3) fun g =>
    match g.est.reqs.find? fun q => q.lane == some l && q.id == id with
    | none => g.onPart fun p => p.inc 0x406C
    | some q => g.regAnswer q status nwords data

/-- REG_FRAME_RESPONSE (R374, R375). -/
def Agg.regFrameResp (g : Agg) (h : EthHdr) (id status nwords : Nat) (data : List W32) : Agg :=
  let (ok, g) := g.treeIn h (.regResp id status nwords data)
  if !ok then g
  else match g.est.reqs.find? fun q => q.lane.isNone && q.id == id with
    | none => g.onPart fun p => p.inc 0x406C
    | some q => g.regAnswer q status nwords data

/-- REG_FRAME (R374): issued on the die's lane; without a route it is UNROUTABLE, and with its lane down or full it goes
unanswered. -/
def Agg.regFrame (g : Agg) (h : EthHdr) (gdid id op nwords addr : Nat) (data : List W32) : Agg :=
  let (ok, g) := g.treeIn h (.regReq gdid id op nwords addr data)
  if !ok then g
  else if !g.rLocal gdid then g.unroutable gdid 3
  else if !g.laneUp (g.rPort gdid) then g
  else match g.regIssue (g.rPort gdid) gdid (.node h.node id) op nwords addr data false with
    | none => g
    | some g => g

/-! ### Bulk loads -/

/-- BULK cells of a load as far as W1 has room: `off` from the target offset of the first byte in `bs`; the answer gives the
cells sent, the bytes left and the lane end. -/
def bulkCells (s : Port) (t id target : Nat) (final : Nat) : Nat → Nat → List Byte → Nat × Nat × Port
  | 0, off, _ => (0, off, s)
  | f + 1, off, bs =>
    let part := bs.take 2040
    if part.isEmpty || !s.room 4 (cellBytes (8 + part.length)) then (0, off, s)
    else
      let last := off + part.length == final
      let c : Cell := { typ := 10, len := 8 + part.length, body := .bulk id target last off part, enq := t }
      let (n, o, s) := bulkCells (s.setQueue 4 (s.queue 4 ++ [c])) t id target final f (off + part.length) (bs.drop 2040)
      (n + 1, o, s)

/-- The descriptor that loads under a lane and LOAD_ID. -/
def Agg.loadOf (g : Agg) (l id : Nat) : Option (Nat × Nat) :=
  (g.est.loads.find? fun x => x.1 == l && x.2.1 == id).map fun x => (x.2.2.1, x.2.2.2)

/-- The LOAD_ID of a descriptor. -/
def Agg.loadId (g : Agg) (i k : Nat) : Option (Nat × Nat) :=
  (g.est.loads.find? fun x => x.2.2.1 == i && x.2.2.2 == k).map fun x => (x.1, x.2.1)

/-- BULK_LOAD (R275, R366): begun, or carried on with the host bytes from the first one not yet sent. A remote die's
memories are reached by no frame: REFUSED. -/
def Agg.bulkLoad (g : Agg) (i k : Nat) (r : HostRead) : Agg :=
  match g.desc i k with
  | none => g
  | some d =>
    let gdid := dget d.bytes 0x18 4
    let off := dget d.bytes 0x20 4
    let len := dget d.bytes 0x24 4
    let l := g.rPort gdid
    let go (g : Agg) (id : Nat) : Agg :=
      match g.hostGet d r with
      | none => g.descEnd i d 3 d.written 0
      | some bs =>
        let (n, o, s) := bulkCells (g.port l) g.part.t id (dget d.bytes 0x1C 1) (off + len) (len / 2040 + 1) (off + d.sent)
          (bs.take (len - d.sent))
        (g.setPort l s).putDesc i { d with phase := .running, sent := o - off, left := d.left + n }
    if dget d.bytes 0 1 ≠ 4 then g
    else match d.phase with
      | .fetched =>
        if !g.routed gdid then (g.unroutable gdid 1).descEnd i d 5 0 0
        else if !g.rLocal gdid then g.descEnd i d 8 0 0
        else if !g.laneUp l then g.descEnd i d 12 0 0
        else
          let id := sget 0 g.est.loadSeq l
          go (g.onEst fun e => { e with
            loadSeq := sput 0 e.loadSeq l ((id + 1) % 65536), loads := e.loads ++ [(l, id, i, d.index)] }) id
      | .running => match g.loadId i k with
        | some (_, id) => if d.sent < len then go g id else g
        | none => g
      | .finished .. => g

/-- BULK_ACK (R275): counted toward its load, which ends with the last one. -/
def Agg.bulkAck (g : Agg) (l : Nat) (h : CellHdr) (id status offset : Nat) : Agg :=
  Agg.receivedOk (g.cellIn l h 11 (some 8)) l h 11 (status < 4) fun g =>
    match g.loadOf l id with
    | none => g
    | some (i, k) => match g.desc i k with
      | none => g.onEst fun e => { e with loads := e.loads.filter fun x => !(x.1 == l && x.2.1 == id) }
      | some d =>
        let len := dget d.bytes 0x24 4
        let size := min 2040 (len - (offset - dget d.bytes 0x20 4))
        let d' := { d with
          left := d.left - 1
          refused := if d.refused = 0 then status else d.refused
          written := if status = 0 then d.written + size else d.written }
        if d'.left = 0 ∧ d'.sent = len then
          (g.onEst fun e => { e with loads := e.loads.filter fun x => !(x.1 == l && x.2.1 == id) }).descEnd i d'
            (if d'.refused = 0 then 0 else 6) d'.written d'.refused
        else g.putDesc i d'

/-! ### Timeouts -/

/-- REG_TIMEOUT raised (R375). -/
def Agg.timeoutRaise (g : Agg) (gdid id tries : Nat) : Agg :=
  g.onPart fun p => p.raise 4 19 { detail := leBytes 4 gdid ++ leBytes 2 id ++ leBytes 1 tries }

/-- A register request without a response for REG_TIMEOUT_US (R375): a read or an IDEMPOTENT write is reissued up to
REG_RETRIES times; otherwise it ends TIMEOUT. One issued for another aggregator is forgotten. -/
def Agg.regExpire (g : Agg) (q : RegOut) : Agg :=
  let again := (q.op == 1 || q.idem) && decide (q.tries < g.part.fld 0x404C 0 3)
  match q.owner with
  | .node _ _ => g.onEst fun e => { e with reqs := e.reqs.erase q }
  | _ =>
    if again then
      let q' := { q with tries := q.tries + 1, since := g.now }
      let g := (g.onEst fun e => { e with reqs := e.reqs.map fun x => if x = q then q' else x }).onPart fun p => p.inc 0x4070
      match q.lane with
      | some l => match g.regCell l q.id q.op q.nwords q.addr q.data with | some g => g | none => g
      | none => g.ethSend (g.rNode q.gdid) (.regReq q.gdid q.id q.op q.nwords q.addr q.data)
    else
      let g := (g.onEst fun e => { e with reqs := e.reqs.erase q }).timeoutRaise q.gdid q.id (q.tries + 1)
      match q.owner with
      | .desc i k => match g.desc i k with
        | some d => g.descEnd i d 7 0 (256 * (q.tries % 256))
        | none => g
      | _ => g

/-- REG_TIMEOUT (R375). A bulk load whose acknowledgements stay away is timed as a write (R274): with IDEMPOTENT it is sent
again from its start. -/
def Agg.regTimeout (g : Agg) (w : ReqName) : Agg :=
  let us := g.part.num 0x4048 * 1000
  match w with
  | .lane l id => match g.est.reqs.find? fun q => q.lane == some l.val && q.id == id with
    | some q => (g.reach (q.since + us)).regExpire q
    | none => g
  | .remote id => match g.est.reqs.find? fun q => q.lane.isNone && q.id == id with
    | some q => (g.reach (q.since + us)).regExpire q
    | none => g
  | .load i k => match g.desc i.val k, g.loadId i.val k with
    | some d, some (l, id) =>
      if d.phase ≠ .running then g
      else if (dget d.bytes 1 1).testBit 0 && decide (d.tries < g.part.fld 0x404C 0 3) then
        (g.putDesc i.val { d with tries := d.tries + 1, sent := 0, left := 0, written := 0, refused := 0 }).onPart fun p => p.inc 0x4070
      else
        ((g.onEst fun e => { e with loads := e.loads.filter fun x => !(x.1 == l && x.2.1 == id) }).timeoutRaise
          (dget d.bytes 0x18 4) id (d.tries + 1)).descEnd i.val d 7 d.written 0
    | _, _ => g

/-! ### The other hardware descriptors -/

/-- NOP (R366). -/
def Agg.nopDesc (g : Agg) (i k : Nat) : Agg :=
  match g.ready i k 0 with
  | none => g
  | some d => g.descEnd i d 0 0 0

/-- SIGNAL (R366): VALUE written to ADDR. -/
def Agg.signalDesc (g : Agg) (i k : Nat) : Agg :=
  match g.ready i k 1 with
  | none => g
  | some d => (g.hostPut d (dget d.bytes 0x18 8) (leBytes 8 (dget d.bytes 0x20 8))).descEnd i d 0 0 0

/-- Records taken oldest first until `room` bytes would be passed (R376). -/
def takeRecords (room : Nat) : List RecEntry → Nat → List RecEntry
  | [], _ => []
  | e :: es, used => if room < used + e.size then [] else e :: takeRecords room es (used + e.size)

/-- RECORDER_READ (R376). -/
def Agg.recorderRead (g : Agg) (i k : Nat) : Agg :=
  match g.ready i k 5 with
  | none => g
  | some d =>
    let gdid := dget d.bytes 0x18 4
    let region := dget d.bytes 0x1C 1
    let first := dget d.bytes 0x20 8
    let last := dget d.bytes 0x28 8
    let every := region ≠ 0 ∧ gdid = 0xFFFFFFFF
    if g.interior ∨ (!g.rLocal gdid ∧ ¬every) then g.descEnd i d 8 0 0
    else
      let es := if region = 0 then
          (sget [] g.conf.rings (g.rPort gdid)).filter fun e => decide (first ≤ e.window ∧ e.window ≤ last)
        else (sget [] g.conf.rings (15 + region)).filter fun e =>
          decide (first ≤ e.time ∧ e.time ≤ last ∧ (gdid = 0xFFFFFFFF ∨ e.gdid = gdid))
      let rs := takeRecords (dget d.bytes 0x38 4) es 0
      let bs := (rs.map fun e => e.header ++ e.bytes).flatten
      (g.hostPut d (dget d.bytes 0x30 8) bs).descEnd i d 0 bs.length rs.length

/-- The dies a new fence entry would take from another VALID entry (R386). -/
def Agg.fenceTaken (g : Agg) (part add : Nat) : Bool :=
  (List.range 16).any fun l => add.testBit l && (g.est.fence.any fun c =>
    c.1 / 16 != part && c.1 % 16 == 8 + l / 8 && c.2.toNat.testBit (l % 8) && g.fValid (c.1 / 16))

/-- FENCE_SET (R386): the entry written, its reserved bits zero, JOIN to each die added and ISOLATE to each removed; REFUSED, changing nothing,
where a die added belongs to another VALID entry. -/
def Agg.fenceSet (g : Agg) (i k : Nat) (r : HostRead) : Agg :=
  match g.ready i k 8 with
  | none => g
  | some d => match g.hostGet d r with
    | none => g.descEnd i d 3 0 0
    | some bs =>
      let part := dget d.bytes 0x18 2
      let bs := leBytes 2 (dget bs 0 2 % 8) ++ padTo 10 (bs.drop 2) ++ [0, 0, 0, 0]
      let old := g.fMask part
      let new := if (dget bs 0 1).testBit 0 then dget bs 8 2 else 0
      let add := (List.range 16).filter fun l => new.testBit l && !old.testBit l
      let gone := (List.range 16).filter fun l => old.testBit l && !new.testBit l
      if g.fenceTaken part (add.map fun l => 2 ^ l).sum then g.descEnd i d 8 0 0
      else
        let g := g.onEst fun e => { e with fence := Mem.wrBytes e.fence (16 * part) bs }
        let g := add.foldl (fun g l => g.fence l 2 part part) g
        let g := gone.foldl (fun g l => g.fence l 1 0 part) g
        g.descEnd i d 0 add.length gone.length

/-- BCAST (R366): at the root only. -/
def Agg.bcastDesc (g : Agg) (i k : Nat) : Agg :=
  match g.ready i k 9 with
  | none => g
  | some d =>
    if !g.isRoot then g.descEnd i d 8 0 0
    else
      let f (o n : Nat) : Nat := dget d.bytes o n
      let start := f 0x18 1 == 1
      let g := g.putDesc i { d with phase := .running }
      let (e, g) := if start then g.makeEvent 7 0 2 (f 0x30 2) 0xFFFFFFFF (f 0x20 8) (f 0x28 4) 0
        else g.makeEvent 6 (f 0x19 1) 2 (f 0x30 2) 0xFFFFFFFF (f 0x20 8) (f 0x2C 4) (f 0x28 4)
      let expected := if start then f 0x1C 4
        else match g.job (f 0x28 4) with | some j => j.members | none => 0
      g.bcastStart (f 0x18 1) e expected (some (i, k)) false

/-! ### Firmware-served routes -/

/-- Firmware serves (R325, R335): FW_STATE is RUNNING, PROBATION or DEGRADED, outside a handoff. -/
def Agg.fwRuns (g : Agg) : Bool :=
  let s := g.part.fld 0x2044 0 3
  (s == 1 || s == 3 || s == 4) && g.part.fld 0x2074 0 3 != 3

/-- Entries written into the routing table from GDID `gd` on (R383): FWD_COUNT stays, reserved bits read zero; lanes named
are to be checked (R397). -/
def Agg.routePut (g : Agg) : Nat → Nat → List Byte → Agg
  | 0, _, _ => g
  | n + 1, gd, bs =>
    let fl := dget bs 5 1 % 64
    let row := padTo 4 bs ++ leBytes 1 (dget bs 4 1 % 16) ++ leBytes 1 fl ++ padTo 6 (bs.drop 6)
    let g := g.onEst fun e => { e with route := Mem.wrBytes e.route (16 * gd) row }
    let g := if fl.testBit 1 then g.onChip fun c => { c with recheck := sput false c.recheck (dget bs 4 1 % 16) true } else g
    g.routePut n (gd + 1) (bs.drop 16)

/-- ROUTE_WRITE (R366, R383). -/
def Agg.routeWrite (g : Agg) (i k : Nat) (r : HostRead) : Agg :=
  match g.ready i k 6 with
  | none => g
  | some d =>
    let gd := dget d.bytes 0x18 4
    let n := dget d.bytes 0x1C 4
    if !g.fwRuns then g
    else if 262144 < gd + n then g.descEnd i d 5 0 0
    else match g.hostGet d r with
      | none => g.descEnd i d 3 0 0
      | some bs => (g.routePut n gd bs).descEnd i d 0 n 0

/-- ROUTE_READ (R366, R383). -/
def Agg.routeRead (g : Agg) (i k : Nat) : Agg :=
  match g.ready i k 7 with
  | none => g
  | some d =>
    let gd := dget d.bytes 0x18 4
    let n := dget d.bytes 0x1C 4
    if !g.fwRuns then g
    else if 262144 < gd + n then g.descEnd i d 5 0 0
    else (g.hostPut d (dget d.bytes 0x20 8) (Mem.rdBytes g.est.route (16 * gd) (16 * n))).descEnd i d 0 n 0

end Sys2Proof.Machine
end

