-- ==== Sys2Proof/Machine/AggNet.lean ====
section
/-! DEFINITION. Management Ethernet (R378, R379, R389), forwarded records (R384), the aggregator's PTP clock (R380–R382), and
the TOPOLOGY task's checks (R397). -/

namespace Sys2Proof.Machine

/-- The page of Ethernet port `i` as a byte offset. -/
def ethPage (i : Nat) : Nat := (8 + i) * 0x1000

/-- FORWARDED_RECORD (R384): delivered where this aggregator's own route is VALID and not LOCAL; without a route it is
UNROUTABLE. -/
def Agg.forwardedIn (g : Agg) (h : EthHdr) (gdid kind : Nat) (bs : List Byte) : Agg :=
  let (ok, g) := g.treeIn h (.record gdid kind bs)
  if !ok then g
  else if !g.routed gdid then g.unroutable gdid 2
  else if g.rLocal gdid then g
  else
    let (done, g) := g.recRing (subOf kind).1 { time := g.now, port := 0xFF, kind := kind, bytes := bs, gdid := gdid }
    if done then g.fwdCount gdid else g

/-! ### Ports -/

/-- An Ethernet link lost (R378, R390): cause 1 signal, 2 FEC, 3 RETRAIN. -/
def Agg.ethDown (g : Agg) (i cause : Nat) : Agg :=
  if !g.part.bit (ethPage i + 0x44) 0 then g
  else g.onPart fun p => ((((p.setBit (ethPage i + 0x44) 0 false).setBit (ethPage i + 0x44) 1 false).inc
    (ethPage i + 0x70)).raise (8 + i) 16 { unit := i, detail := leBytes 1 cause ++ leBytes 8 p.now })

/-- The port's link and FEC lock are back (R378), which takes the reference (R443). -/
def Agg.ethLinkUp (g : Agg) (i : Nat) : Agg :=
  if g.part.active (8 + i) && !g.part.disc.refLoss then
    g.onPart fun p => (p.setBit (ethPage i + 0x44) 0 true).setBit (ethPage i + 0x44) 1 true
  else g

/-- FEC codewords of a port corrected and uncorrectable since they were last counted (R389). -/
def Agg.ethFec (g : Agg) (i : Nat) (fec : Nat × Nat) : Agg :=
  g.onPart fun p => (p.incBy (ethPage i + 0x68) fec.1).incBy (ethPage i + 0x6C) fec.2

/-- A port page leaves ACTIVE: the port is held in reset (R389). -/
def Agg.ethOff (g : Agg) (i : Nat) : Agg := g.onPart fun p => p.setFld (ethPage i + 0x44) 0 3 0

/-- PRP_SUPERVISION (R379): a supervision frame, every 2,000 ms while PRP_EN is 1. -/
def Agg.prpSupervise (g : Agg) : Agg :=
  if g.part.bit 0x4100 4 then
    let g := g.reach ((g.now / 2000000000 + 1) * 2000000000)
    g.ethSend 0x01154E000100 .supervision
  else g

/-- PRP_LAN_DOWN (R379): 6,000 ms without a frame; without PRP only LAN_ALIVE falls (R389). -/
def Agg.prpLanDown (g : Agg) (i : Nat) : Agg :=
  if !g.part.active (8 + i) then g
  else
    let t := sget 0 g.est.lastRx i
    let g := (g.reach (t + 6000000000)).onPart fun p => p.setBit (ethPage i + 0x44) 2 false
    if g.part.bit 0x4100 4 then g.onPart fun p => p.raise (8 + i) 17 { unit := i, detail := leBytes 8 t } else g

/-! ### PTP -/

/-- The settings of the aggregator's discipline machine (R381): the PTP registers, and Headwater's reset values for LOCK_NS
and the servo shifts, for which ESTUARY has no register. -/
def Agg.discCfg (g : Agg) : DiscCfg :=
  { jump := g.part.num 0x4108, lock := (resetWord false 0x1068).toNat, kp := bitsOf (resetWord false 0x1070).toNat 0 4
    ki := bitsOf (resetWord false 0x1070).toNat 8 4, servo := g.part.bit 0x4100 0, trimSet := 0 }

/-- What a discipline input asks of the aggregator (R381, R390); `o` is the correction in 2⁻¹⁶ ns. -/
def Agg.discDo (g : Agg) (x : Disc) (a : DiscDo) (o : Int) : Agg :=
  let moved := x.state != g.part.disc.state
  let g := g.onPart fun p => { p with disc := x }
  let g := if moved then g.onPart fun p => p.setBit 0x4074 3 true else g
  let g := if a.refused then g.onPart fun p => p.raise 4 21
      { detail := leBytes 8 (twos (sar (-o) 16) 64) ++ leBytes 8 (p.num64 0x4118) } else g
  match a.step with
  | none => g
  | some s =>
    let g := g.onPart fun p => { p with time := BitVec.ofInt 96 ((p.time.toNat : Int) + s * 65536) }
    let g := (List.range 16).foldl (fun g l => g.setPort l (gateStepped g.part (g.port l) (s * 65536))) g
    (g.onEst fun e => { e with ptpFrom := ((e.ptpFrom : Int) + sar s 16).toNat }).cutsDue

/-- A measurement of the aggregator's clock (R380, R381): mean path delay, offset, registers, and the discipline input. -/
def Agg.ptpMeasure (g : Agg) (i t1 t2 t3 t4 : Nat) (cs cd : Int) (gm : Nat) : Agg :=
  let mean := sar (((t2 : Int) - t3) + ((t4 : Int) - t1) - cs - cd) 1
  let off := (t2 : Int) - t1 - mean - cs - signed (g.part.fld (ethPage i + 0x4C) 0 16) 16 * 256
  let g := g.onPart fun p => ((p.setNum 0x4110 (twos (clampAbs (sar off 12) 0x7FFFFFFF) 32)).setNum 0x4114
    (min 0xFFFFFFFF (sar mean 12).toNat)).setNum64 0x4118 gm
  let g := g.onEst fun e => { e with ptpFrom := g.now }
  if g.part.disc.refLoss then g
  else
    let (x, a) := g.part.disc.measure g.discCfg (-off) g.now
    g.discDo x a (-off)

/-- PTP_MESSAGE (R380–R382). A message is a frame its port has received; an exchange has its messages behind it, and one
Delay_Req sent (DEDUCED: log entry 211). -/
def Agg.ptpMessage (g : Agg) (i : Nat) (m : PtpMsg) : Agg :=
  if !g.ethUp i then g
  else match m with
  | .exchange t1 t2 t3 t4 cs cd gm invalid =>
    if !g.part.active 4 || g.part.fld 0x4104 6 1 != i then g
    else
      let g := g.txFrame i
      if invalid then g else g.ptpMeasure i t1 t2 t3 t4 cs cd gm
  | .message c r timed =>
    let g := g.rxFrame i
    if g.part.bit 0x4100 3 && g.ethUp (1 - i) && c != 0x7FFFFFFFFFFFFFFF then
      (g.txFrame (1 - i)).ethQueue 8 (.ptp (1 - i) (if timed then c + r else c))
    else g
  | .states s a b =>
    if !g.fwRuns then g
    else g.onPart fun p => ((p.setFld 0x4104 6 1 s.val).setFld 0x8044 4 4 a).setFld 0x9044 4 4 b

/-- PTP_SYNC_MISSED (R381): three sync intervals without a measurement. -/
def Agg.ptpMissed (g : Agg) : Agg :=
  if !g.part.active 4 then g
  else
    let g := g.reach (g.est.ptpFrom + 3000000000 / 2 ^ g.part.fld 0x4100 16 4)
    let g := g.onEst fun e => { e with ptpFrom := g.now }
    let (x, a) := g.part.disc.miss3 g.discCfg g.now
    g.discDo x a 0

/-- PTP_HOLD_TIMEOUT (R381). -/
def Agg.ptpHold (g : Agg) : Agg :=
  if g.part.active 4 && g.part.disc.state == .holdover then
    let g := g.reach (g.part.disc.holdSince + g.part.num 0x410C)
    let (x, a) := g.part.disc.holdTimeout
    g.discDo x a 0
  else g

/-- PTP_CTL.ARM_RESTEP and DISARM (R381, R63). -/
def Agg.ptpArm (g : Agg) (on : Bool) : Agg := g.onPart fun p => { p with disc := { p.disc with armed := on } }

/-- PTP_CTL.SERVO_EN set again: the integral takes the trim in force (R64). -/
def Agg.ptpServo (g : Agg) : Agg := g.onPart fun p => { p with disc := { p.disc with integ := p.disc.trim } }

/-! ### TOPOLOGY -/

/-- The GDID whose LOCAL route names a lane; the lowest where several do. -/
def Agg.routeOfLane (g : Agg) (l : Nat) : Option Nat :=
  (g.est.route.find? fun c => c.1 % 16 == 5 && g.rLocal (c.1 / 16) && g.rPort (c.1 / 16) == l).map fun c => c.1 / 16

/-- ID_CONFLICT on a lane (R397, R410). -/
def Agg.idConflict (g : Agg) (l other : Nat) : Agg :=
  g.onPart fun p => p.raiseEach 0 18
    { unit := l, detail := leBytes 1 l ++ leBytes 4 (g.peer l) ++
        leBytes 4 (match g.routeOfLane l with | some x => x | none => 0xFFFFFFFF) ++ leBytes 1 other }

/-- TOPOLOGY_CHECK of a lane (R397). -/
def Agg.topologyCheck (g : Agg) (l : Nat) : Agg :=
  if g.interior || !g.fwRuns || !g.laneUp l then g
  else
    let id := g.peer l
    let r := g.routeOfLane l
    let twin := (List.range 16).find? fun k => k != l && g.laneUp k && g.peer k == id
    if 0xFFFE0000 ≤ id then
      match r with
      | none => g
      | some x => match g.regIssue l x (.topology x) 2 1 0x44 [BitVec.ofNat 32 x] false with
        | none => g
        | some g => g
    else match twin with
    | some k => (g.idConflict l k).idConflict k l
    | none => match r with
      | some x => if x = id then g.onChip fun c => { c with recheck := sput false c.recheck l false } else g.idConflict l 0xFF
      | none => if g.routed id then g.idConflict l 0xFF else g

end Sys2Proof.Machine
end

