-- ==== Sys2Proof/Machine/MillMsgs.lean ====
section
/-! DEFINITION. Millrace's messages (R328–R331): taken from the request rings, their responses and events written to the
response rings, and what each message does. -/

namespace Sys2Proof.Machine

/-- The firmware and rings region of LPDDR5X (R327). -/
def fwRegion : Nat := 0xF80000000
/-- The staging area. -/
def stagingBase : Nat := 0xF88000000
/-- The request ring of pair `p` in LPDDR5X. -/
def reqBase (p : Nat) : Nat := 0xF90000000 + p * 0x400000
/-- The response ring of pair `p`. -/
def rspBase (p : Nat) : Nat := reqBase p + 0x200000
/-- The registers of pair `p`. -/
def pairReg (p : Nat) : Nat := 0x20C0 + 0x20 * p
/-- The slots of pair `p`. -/
def Agg.slots (g : Agg) (p : Nat) : Nat := 2 ^ g.part.fld (pairReg p) 0 4
/-- EN of pair `p`. -/
def Agg.pairOn (g : Agg) (p : Nat) : Bool := g.part.bit (pairReg p) 4
/-- GENERATION. -/
def Agg.generation (g : Agg) : Nat := g.part.fld 0x2048 16 16
/-- The update phase: 0 IDLE, 1 VERIFYING, 2 VERIFIED, 3 HANDOFF, 4 PROBATION. -/
def Agg.updPhase (g : Agg) : Nat := g.part.fld 0x2074 0 3
/-- VERSION running. -/
def Agg.version (g : Agg) : Nat := g.part.num 0x2064

/-- A message's bytes (R329): header, payload, CRC, padded to its slots. -/
def msgBytes (op flags tag gen status : Nat) (payload : List Byte) : List Byte :=
  let n := (20 + payload.length + 63) / 64
  padTo (64 * n) (withCrc (leBytes 2 op ++ leBytes 1 n ++ leBytes 1 flags ++ leBytes 4 tag ++ leBytes 2 gen ++
    leBytes 2 status ++ leBytes 2 payload.length ++ [0, 0] ++ payload))

/-- Slots read from a ring in `n` slots from slot `i`, wrapping. -/
def slotBytes (m : Mem) (base size : Nat) : Nat → Nat → List Byte
  | 0, _ => []
  | n + 1, i => Mem.rdBytes m (base + 64 * (i % size)) 64 ++ slotBytes m base size n (i + 1)

/-- Slots written to a ring from slot `i`, wrapping. -/
def slotWrite (m : Mem) (base size : Nat) : Nat → Nat → List Byte → Mem
  | 0, _, _ => m
  | n + 1, i, bs => slotWrite (Mem.wrBytes m (base + 64 * (i % size)) (bs.take 64)) base size n (i + 1) (bs.drop 64)

/-! ### Taking -/

/-- The LENGTH a request of an opcode has (R331), `none` for one that is not known; an SB_WRITE carries its count. -/
def reqLength (op : Nat) (payload : List Byte) : Option Nat :=
  if op = 1 ∨ op = 2 ∨ (0x10 ≤ op ∧ op ≤ 0x13) then some 0
  else if op = 3 then some 10
  else if op = 0x20 then some 4
  else if op = 0x21 then some (4 + dget payload 3 1)
  else if op = 0x22 then some 1
  else none

/-- The largest response of a request in slots (R328). -/
def rspSlots (op : Nat) (payload : List Byte) : Nat :=
  let n := if op = 3 then dget payload 8 2 else if op = 0x20 then dget payload 3 1 + 1 else if op = 2 then 28 else 16
  (20 + n + 63) / 64

/-- Whether a request is MALFORMED (R329): CRC, SLOTS, LENGTH, OPCODE, reserved fields, or an argument out of its range. -/
def reqBad (bs : List Byte) : Bool :=
  let op := dget bs 0 2
  let len := dget bs 0xC 2
  let pl := (bs.drop 16).take len
  decide (492 < len) || decide (dget bs 2 1 ≠ (20 + len + 63) / 64) || decide (bs.length < 20 + len) ||
    !crcOk (bs.take (20 + len)) || decide (reqLength op pl ≠ some len) || decide (4 ≤ dget bs 3 1) ||
    decide (dget bs 0xE 2 ≠ 0) ||
    (op == 3 && decide (480 < dget pl 8 2)) ||
    ((op == 0x20 || op == 0x21 || op == 0x22) && decide (3 < dget pl 0 1)) ||
    ((op == 0x20 || op == 0x21) && dget pl 3 1 == 0)

/-- A request read from its bytes. -/
def readMsg (src : MsgFrom) (bs : List Byte) : Msg :=
  let op := dget bs 0 2
  let pl := (bs.drop 16).take (dget bs 0xC 2)
  { src := src, opcode := op, tag := dget bs 4 4, gen := dget bs 8 2, idem := (dget bs 3 1).testBit 0, payload := pl
    room := if reqBad bs then 1 else rspSlots op pl }

/-- A request taken (R329, R330): MALFORMED and STALE_GEN are answered at once. -/
def Agg.msgTake (g : Agg) (src : MsgFrom) (bs : List Byte) : Agg :=
  let m := readMsg src bs
  let put (g : Agg) (m : Msg) : Agg := g.onMill fun x => { x with msgs := x.msgs ++ [m] }
  if reqBad bs then put g { m with phase := .done 2 [] }
  else if m.gen ≠ g.generation then
    put (g.onPart fun p => (p.inc 0x20AC).raise 2 24
      { detail := leBytes 2 m.gen ++ leBytes 2 g.generation ++ [1] }) { m with phase := .done 9 [] }
  else put g m

/-- Free slots of a response ring. -/
def Agg.rspFree (g : Agg) (p : Nat) : Nat :=
  let n := g.slots p
  n - 1 - (g.part.fld (pairReg p + 0xC) 0 12 + n - g.part.fld (pairReg p + 0x10) 0 12 % n) % n

/-- Slots reserved for the responses of a pair's messages. -/
def Agg.rspHeld (g : Agg) (p : Nat) : Nat :=
  ((g.mill.msgs.filter fun m => !m.orphan && (match m.src with | .pair q => q.val == p | .desc .. => false)).map fun m => m.room).sum

/-- The page serves rings: ACTIVE, and firmware runs (R325). -/
def Agg.msgServed (g : Agg) : Bool := g.part.active 2 && g.fwRuns

/-- Requests of a pair taken in ring order while the response ring has room for the largest response (R328). -/
def Agg.takeRequests (g : Agg) (p : Nat) : Nat → Agg
  | 0 => g
  | f + 1 =>
    let n := g.slots p
    let h := g.part.fld (pairReg p + 8) 0 12
    let left := (g.part.fld (pairReg p + 4) 0 12 + n - h % n) % n
    if !g.msgServed || !g.pairOn p || left == 0 then g
    else
      let k := min left (max 1 (min 8 (Mem.rdLE g.chip.dram (reqBase p + 64 * (h % n) + 2) 1)))
      let bs := slotBytes g.chip.dram (reqBase p) n k h
      let m := readMsg (.pair (Fin.ofNat 4 p)) bs
      if g.rspFree p < g.rspHeld p + m.room then g
      else ((g.onPart fun q => q.setFld (pairReg p + 8) 0 12 ((h + k) % n)).msgTake (.pair (Fin.ofNat 4 p)) bs).takeRequests p f

/-- REQ_TAIL (R328). -/
def Agg.reqTail (g : Agg) (p : Nat) (w : W32) : Agg :=
  let n := g.slots p
  let t := w.toNat % 4096
  let h := g.part.fld (pairReg p + 8) 0 12
  let old := g.part.fld (pairReg p + 4) 0 12
  if n ≤ t ∨ ((t + n - h % n) % n = 0 ∧ (old + n - h % n) % n ≠ 0) then g.onPart fun q => q.accessErr 2 (pairReg p + 4) w true
  else g.onPart fun q => q.setFld (pairReg p + 4) 0 12 t

/-! ### Answering -/

/-- A message written into a response ring, with its vector (R328, R361). -/
def Agg.rspPut (g : Agg) (p : Nat) (bs : List Byte) : Agg :=
  let n := g.slots p
  let t := g.part.fld (pairReg p + 0xC) 0 12
  let k := bs.length / 64
  let g := g.onChip fun c => { c with dram := slotWrite c.dram (rspBase p) n k t bs }
  (g.onPart fun q => q.setFld (pairReg p + 0xC) 0 12 ((t + k) % n)).vector (2 + p)

/-- A sideband message (R331). -/
def Msg.sideband (m : Msg) : Bool := decide (0x20 ≤ m.opcode ∧ m.opcode ≤ 0x22)
/-- Its bus. -/
def Msg.bus (m : Msg) : Nat := dget m.payload 0 1
/-- A message whose response is due. -/
def Msg.isDone (m : Msg) : Bool := match m.phase with | .done .. => true | _ => false

/-- The first message of a source whose response may be written now (R328): in the order taken, but a sideband request may
overtake sideband requests of other buses; `before` are the source's earlier messages still unanswered. -/
def firstAnswer (src : MsgFrom) : List Msg → List Msg → Option Msg
  | [], _ => none
  | m :: ms, before =>
    if m.src ≠ src ∨ m.orphan then firstAnswer src ms before
    else if m.isDone && (before.all fun b => b.sideband && m.sideband && b.bus != m.bus) then some m
    else firstAnswer src ms (before ++ [m])

/-- A done message answered: to its ring pair, or as its descriptor's end with the response in host memory. -/
def Agg.msgAnswer (g : Agg) (m : Msg) : Agg :=
  match m.phase with
  | .done st pl =>
    let g := (g.onMill fun x => { x with msgs := x.msgs.erase m }).onPart fun p => p.event 2
    let bs := msgBytes m.opcode 0 m.tag g.generation st pl
    if m.orphan then g
    else match m.src with
    | .pair p => g.rspPut p.val bs
    | .desc i k => match g.desc i.val k with
      | none => g
      | some d => (g.hostPut d (dget d.bytes 0x20 8) bs).descEnd i.val d (if st = 1 then 1 else 0) bs.length 0
  | _ => g

/-- The MILLRACE page is FAULTED: the messages of its rings are held (R41). -/
def Agg.pairsHeld (g : Agg) : Bool := g.part.pstate 2 == .faulted

/-- Every response that is due written, in order. -/
def Agg.answerAll : Nat → Agg → Agg
  | 0, g => g
  | f + 1, g =>
    let due (src : MsgFrom) : Option Msg := if g.pairsHeld then none else firstAnswer src g.mill.msgs []
    match ((List.range 4).filterMap fun p => due (.pair (Fin.ofNat 4 p))) ++
        (g.mill.msgs.filter fun m => m.isDone && (m.orphan || (match m.src with | .desc .. => true | .pair _ => false))) with
    | [] => g
    | m :: _ => Agg.answerAll f (g.msgAnswer m)

/-- An event (R328, R329): it waits in the store of 64, or is dropped and counted. -/
def Agg.event (g : Agg) (op : Nat) (payload : List Byte) : Agg :=
  if g.mill.events.length < 64 then g.onMill fun x => { x with events := x.events ++ [(op, payload)] }
  else g.onPart fun p => p.inc 0x20B8

/-- Waiting events written to the lowest enabled pair while it has room beside its reserved responses. -/
def Agg.eventsOut : Nat → Agg → Agg
  | 0, g => g
  | f + 1, g =>
    match g.mill.events, (List.range 4).find? fun p => g.pairOn p with
    | (op, pl) :: es, some p =>
      let bs := msgBytes op 2 0 g.generation 0 pl
      if g.msgServed && decide (g.rspHeld p + bs.length / 64 ≤ g.rspFree p) then
        Agg.eventsOut f ((g.onMill fun x => { x with events := es }).rspPut p bs)
      else g
    | _, _ => g

/-- Message service as it comes about after each command: responses, events, and new requests. -/
def Agg.msgSettle (g : Agg) : Agg :=
  let g := Agg.answerAll (g.mill.msgs.length + 1) g
  let g := Agg.eventsOut (g.mill.events.length + 1) g
  let g := (List.range 4).foldl (fun g p => g.takeRequests p (if g.pairOn p then 4096 else 0)) g
  Agg.answerAll (g.mill.msgs.length + 1) g

/-- FW_MSG (R366): a message of R329 from host memory passed to firmware. -/
def Agg.fwMsg (g : Agg) (i : Fin 64) (k : Nat) (r : HostRead) : Agg :=
  match g.ready i.val k 10 with
  | none => g
  | some d =>
    if !g.fwRuns then g
    else match g.hostGet d r with
    | none => g.descEnd i.val d 3 0 0
    | some bs => (g.putDesc i.val { d with phase := .running }).msgTake (.desc i k) bs

/-! ### What messages do -/

/-- Whether firmware acts on a source's messages: it runs, and a ring's messages are not held (R325, R41). -/
def Agg.msgActs (g : Agg) (src : MsgFrom) : Bool :=
  g.fwRuns && (match src with | .pair _ => !g.pairsHeld | .desc .. => true)

/-- The oldest taken message of an opcode from a source that meets a test. -/
def Agg.msgWith (g : Agg) (src : MsgFrom) (op : Nat) (t : Msg → Bool) : Option Msg :=
  if g.msgActs src then g.mill.msgs.find? fun m => m.src == src && m.opcode == op && m.phase == .taken && t m else none

/-- The oldest taken message of an opcode from a source, while firmware runs. -/
def Agg.msgFor (g : Agg) (src : MsgFrom) (op : Nat) : Option Msg := g.msgWith src op fun _ => true

/-- A message's phase changed. -/
def Agg.putMsg (g : Agg) (m : Msg) (ph : MsgPhase) : Agg :=
  g.onMill fun x => { x with msgs := x.msgs.map fun y => if y = m then { y with phase := ph } else y }

/-- PING (R331). -/
def Agg.ping (g : Agg) (src : MsgFrom) : Agg :=
  match g.msgFor src 1 with
  | none => g
  | some m => g.putMsg m (.done 0 (leBytes 4 g.version ++ leBytes 1 (g.part.fld 0x2044 0 3)))

/-- The core that hosts a task, 0xFF none. -/
def Agg.taskCore (g : Agg) (t : Nat) : Nat :=
  match (List.range 8).find? fun c => g.part.bit (0x2080 + 4 * c) (16 + t) with | some c => c | none => 0xFF

/-- GET_INFO (R331). -/
def Agg.getInfo (g : Agg) (src : MsgFrom) : Agg :=
  match g.msgFor src 2 with
  | none => g
  | some m => g.putMsg m (.done 0 (leBytes 4 g.version ++ leBytes 4 (g.part.num 0x2068) ++ leBytes 2 (g.part.num 0x206C) ++
      leBytes 2 (match g.mill.running with | some i => i.schema | none => 0) ++
      ((List.range 8).map fun c => leBytes 1 (g.part.fld (0x2080 + 4 * c) 0 2)).flatten ++
      ((List.range 8).map fun t => leBytes 1 (g.taskCore t)).flatten))

/-- `n` bytes nothing states: free values. -/
def drawBytes : Nat → Part → List Byte × Part
  | 0, p => ([], p)
  | n + 1, p =>
    let (w, p) := p.draw32
    let (bs, p) := drawBytes n p
    (BitVec.ofNat 8 w.toNat :: bs, p)

/-- GET_LOG (R331): bytes of the firmware log, whose contents are not stated. -/
def Agg.getLog (g : Agg) (src : MsgFrom) : Agg :=
  match g.msgFor src 3 with
  | none => g
  | some m =>
    let (bs, p) := drawBytes (dget m.payload 8 2) g.part
    { g with part := p }.putMsg m (.done 0 bs)

/-- The message that holds a bus. -/
def Agg.sbHolder (g : Agg) (bus : Nat) : Option Msg :=
  g.mill.msgs.find? fun x => x.sideband && x.phase == .started && x.bus == bus

/-- The oldest sideband message of an opcode whose bus no other message holds is started (R331). -/
def Agg.sbStart (g : Agg) (src : MsgFrom) (op : Nat) : Agg :=
  match g.msgWith src op fun m => (g.sbHolder m.bus).isNone with
  | none => g
  | some m => (g.putMsg m .started).show (.sideband m.bus m.payload)

/-- SB_TRANSACTION_DONE (R331); `sensor` names the sensor that a periodic read sampled (R302), with its value. -/
def Agg.sbDone (g : Agg) (bus : Nat) (r : SbResult) (sensor : Option (Nat × Int)) : Agg :=
  match sensor with
  | some (k, v) => if g.fwRuns then g.sample 6 k 0 v else g
  | none => match g.sbHolder bus with
    | none => g
    | some m => match r with
      | .nak => g.putMsg m (.done 7 [])
      | .done bs st =>
        g.putMsg m (.done 0 (if m.opcode = 0x20 then padTo (dget m.payload 3 1) bs ++ [st]
          else if m.opcode = 0x22 then padTo 16 bs else []))

/-- SB_TIMEOUT (R331). -/
def Agg.sbTimeout (g : Agg) (bus : Nat) : Agg :=
  match g.sbHolder bus with
  | none => g
  | some m => g.putMsg m (.done 8 [])

/-- SB_ALERT (R331, R407): the line is served in a handoff too, once service resumes. -/
def Agg.sbAlert (g : Agg) (bus addr : Nat) : Agg :=
  if decide (1 ≤ g.part.fld 0x2044 0 3 ∧ g.part.fld 0x2044 0 3 ≤ 4) then g.event 0x8005 (leBytes 1 bus ++ leBytes 1 addr) else g

/-- MILLRACE drains out of FAULTED (R41): the messages of its rings are discarded; no statistic of the page counts messages (log
entry 208). -/
def Agg.pairsDiscard (g : Agg) : Agg :=
  g.onMill fun x => { x with msgs := x.msgs.filter fun m => match m.src with | .pair _ => false | .desc .. => true }

/-- Message rings reset (R338): EN cleared, indices zeroed; messages in progress complete, their responses discarded. -/
def Agg.pairsReset (g : Agg) : Agg :=
  let g := (List.range 4).foldl (fun g p => g.onPart fun q =>
    ((((q.setBit (pairReg p) 4 false).setFld (pairReg p + 4) 0 12 0).setFld (pairReg p + 8) 0 12 0).setFld
      (pairReg p + 0xC) 0 12 0).setFld (pairReg p + 0x10) 0 12 0) g
  g.onMill fun x => { x with msgs := x.msgs.map fun m =>
    match m.src with | .pair _ => { m with orphan := true } | .desc .. => m }

end Sys2Proof.Machine
end

