-- ==== Sys2Proof/Machine/MillFw.lean ====
section
/-! DEFINITION. Millrace's images, cores and updates (R321–R325, R332–R335). -/

namespace Sys2Proof.Machine

/-! ### Images -/

/-- The identity in an image header (R332). -/
def imageId (h : List Byte) : ImageId :=
  { version := dget h 8 4, svn := dget h 0xC 2, schema := dget h 0xE 2, schemaMin := dget h 0x10 2 }

/-- Why the ROM verifier refuses an image (R332, R340): 0 accepted, 1 format, 2 KEY_ID, 3 hash, 4 signature, 5 SVN. `crypt` is
the outcome of the checks against the key in the mask ROM. -/
def imageCause (h : List Byte) (crypt minSvn : Nat) : Nat :=
  if h.take 4 ≠ [0x4D, 0x52, 0x43, 0x31] ∨ dget h 4 1 ≠ 1 ∨ dget h 5 3 ≠ 0 ∨ dget h 0x12 2 ≠ 0 ∨
      dget h 0x14 4 % 4096 ≠ 0 ∨ 33554432 < dget h 0x14 4 ∨ ((h.drop 0xB0).any fun b => b != 0) = true ∨ h.length ≠ 4096 then 1
  else if 2 ≤ crypt ∧ crypt ≤ 4 then crypt
  else if dget h 0xC 2 < minSvn then 5 else 0

/-- An image refused (R340): source 0 staging, 1 flash primary, 2 flash backup. -/
def Agg.authFail (g : Agg) (h : List Byte) (cause source : Nat) : Agg :=
  g.onPart fun p => p.raise 2 22
    { detail := leBytes 4 (dget h 8 4) ++ leBytes 2 (dget h 0xC 2) ++ leBytes 1 cause ++ leBytes 1 source }

/-- The header of the staged image. -/
def Agg.stagedHeader (g : Agg) : List Byte := Mem.rdBytes g.chip.dram stagingBase 4096

/-- The staged image copied into an image slot (R327, R334). -/
def Agg.copyImage (g : Agg) (slot : Nat) : Agg :=
  let base := fwRegion + slot * 0x4000000
  let m := g.chip.dram
  let keep := m.filter fun c => c.1 < base ∨ base + 0x4000000 ≤ c.1
  let img := m.filter fun c => stagingBase ≤ c.1 ∧ c.1 < stagingBase + 0x4000000
  g.onChip fun x => { x with dram := img.foldl (fun d c => Mem.wr8 d (c.1 - stagingBase + base) c.2) keep }

/-- The image in force shown (R339). -/
def Agg.setRunning (g : Agg) (i : ImageId) : Agg :=
  (g.onMill fun x => { x with running := some i }).onPart fun p => (p.setNum 0x2064 i.version).setFld 0x206C 0 16 i.svn

/-- The fallback image shown. -/
def Agg.setOld (g : Agg) (o : Option ImageId) : Agg :=
  (g.onMill fun x => { x with old := o }).onPart fun p => p.setNum 0x2068 (match o with | some i => i.version | none => 0)

/-! ### Cores -/

/-- STATE of a core: 0 RUN, 1 RESETTING, 2 SPARE, 3 RETIRED. -/
def Agg.coreState (g : Agg) (c : Nat) : Nat := g.part.fld (0x2080 + 4 * c) 0 2
/-- Cores in RUN, lowest first. -/
def Agg.coresRun (g : Agg) : List Nat := (List.range 8).filter fun c => g.coreState c == 0
/-- Cores in RUN or SPARE. -/
def Agg.coresFit (g : Agg) : Nat := ((List.range 8).filter fun c => g.coreState c == 0 || g.coreState c == 2).length
/-- The home core of a task (R321). -/
def homeCore (t : Nat) : Nat := if t < 6 then t + 1 else 7

/-- FW_STATE as images and cores give it (R325, R334). -/
def Agg.fwState (g : Agg) : Nat :=
  if g.mill.running.isNone || g.coresFit == 0 then 5
  else if g.updPhase = 3 then 2
  else if g.coresFit < 4 then 4
  else if g.updPhase = 4 then 3 else 1

/-- STAT brought up to date (R325, R339). FW_DOWN is raised on entry to DOWN: cause 2 when every core is retired. -/
def Agg.fwUpdate (g : Agg) : Agg :=
  let was := g.part.fld 0x2044 0 3
  let now := g.fwState
  let map (f : Nat → Bool) : Nat := ((List.range 8).map fun c => if f c then 2 ^ c else 0).sum
  let g := g.onPart fun p => ((p.setFld 0x2044 0 3 now).setFld 0x2044 8 8
    (if now = 5 then 0 else map fun c => g.coreState c == 0)).setFld 0x2044 16 8 (map fun c => g.coreState c == 3)
  if now = 5 ∧ was ≠ 5 ∧ ((List.range 8).all fun c => g.coreState c == 3) = true then
    g.onPart fun p => p.raise 2 19 { detail := [2] }
  else g

/-- A task placed on a core. -/
def Agg.placeTask (g : Agg) (t c : Nat) : Agg :=
  g.onPart fun p => ((List.range 8).foldl (fun p k => p.setBit (0x2080 + 4 * k) (16 + t) false) p).setBit (0x2080 + 4 * c) (16 + t) true

/-- Tasks a core hosts. -/
def Agg.coreTasks (g : Agg) (c : Nat) : List Nat := (List.range 8).filter fun t => g.part.bit (0x2080 + 4 * c) (16 + t)

/-- The core in RUN that hosts the fewest tasks, the supervisor's excluded while another runs (R323). -/
def Agg.adopter (g : Agg) : Option Nat :=
  match g.coresRun with
  | [] => (List.range 8).find? fun c => g.coreState c == 2
  | [c] => some c
  | _ :: cs => (cs.find? fun c => cs.all fun k => decide ((g.coreTasks c).length ≤ (g.coreTasks k).length))

/-! ### Restart of held items -/

/-- The task that serves a message (R331, R366): 8 for the supervisor; a descriptor's message is held by RINGCMD too. -/
def Msg.task (m : Msg) : Nat :=
  if m.opcode = 3 then 7 else if m.sideband then 2 else if 0x10 ≤ m.opcode ∧ m.opcode ≤ 0x13 then 8 else 0

/-- Whether a restart of a task concerns a message. -/
def Msg.heldBy (m : Msg) (t : Nat) : Bool :=
  m.task == t || (t == 1 && (match m.src with | .desc .. => true | .pair _ => false))

/-- A message refused when it was taken (R329, R330). -/
def Msg.refused (m : Msg) : Bool := m.phase == .done 2 [] || m.phase == .done 9 []

/-- A held item after its task restarted (R322, R324); `lost` where no checkpoint passed its CRC. The counts are items
re-executed and items RESTARTED. -/
def Msg.restart (m : Msg) (lost : Bool) : Msg × Nat × Nat :=
  let fw := decide (0x11 ≤ m.opcode ∧ m.opcode ≤ 0x13)
  let restarted : Msg × Nat × Nat := ({ m with phase := .done 1 [] }, 0, 1)
  if lost then restarted
  else match m.saved with
  | none => (if m.refused then m else { m with phase := .taken }, 0, 0)
  | some .taken => ({ m with phase := .taken }, 0, 0)
  | some .started => if fw then restarted else if m.idem then ({ m with phase := .taken }, 1, 0) else restarted
  | some (.done ..) => (m, 0, 0)

/-- The IDEMPOTENT flag a restart of a task goes by (R324): for RINGCMD that of the descriptor, else the message's own. -/
def Agg.heldIdem (g : Agg) (t : Nat) (m : Msg) : Bool :=
  match m.src with
  | .pair _ => m.idem
  | .desc i k => if t = 1 then (match g.desc i.val k with | some d => (dget d.bytes 1 1).testBit 0 | none => m.idem) else m.idem

/-- The held items of a task restarted; the answer counts those re-executed and RESTARTED. -/
def Agg.resume (g : Agg) (t : Nat) (lost : Bool) : Nat × Nat × Agg :=
  let step (s : Nat × Nat × List Msg) (m : Msg) : Nat × Nat × List Msg :=
    if m.heldBy t then
      let (x, a, b) := ({ m with idem := g.heldIdem t m }).restart lost
      (s.1 + a, s.2.1 + b, s.2.2 ++ [{ x with idem := m.idem }])
    else (s.1, s.2.1, s.2.2 ++ [m])
  let (a, b, ms) := g.mill.msgs.foldl step (0, 0, [])
  (a, b, (g.onMill fun x => { x with msgs := ms }).onPart fun p => (p.incBy 0x20A8 a).incBy 0x20A4 b)

/-- A task adopted (R323, R340). -/
def Agg.adopt (g : Agg) (t old : Nat) (lost : Bool) : Agg :=
  match g.adopter with
  | none => g
  | some c =>
    let g := (g.placeTask t c).onPart fun p => p.setFld (0x2080 + 4 * c) 0 2 0
    let (a, b, g) := g.resume t lost
    let age := (g.now - sget 0 g.mill.checked t) / 1000
    let g := g.onPart fun p => (p.inc 0x20A0).raiseEach 2 17
      { unit := t, detail := leBytes 1 t ++ leBytes 1 old ++ leBytes 1 c ++ leBytes 4 age ++ leBytes 2 a ++ leBytes 2 b ++
          leBytes 1 (b2n lost) }
    g.event 0x8001 (leBytes 1 t ++ leBytes 1 old ++ leBytes 1 c ++ [0] ++ leBytes 4 age ++ leBytes 2 a ++ leBytes 2 b)

/-! ### Updates -/

/-- The update phase entered. -/
def Agg.setPhase (g : Agg) (v : Nat) : Agg :=
  ((g.onPart fun p => p.setFld 0x2074 0 3 v).onMill fun x => { x with phaseAt := g.now }).fwUpdate

/-- UPDATE_STAT.RESULT. -/
def Agg.setResult (g : Agg) (v : Nat) : Agg := g.onPart fun p => p.setFld 0x2074 8 8 v

/-- Every task's held items restarted, as an image takes over (R335). -/
def Agg.resumeAll (g : Agg) : Agg :=
  let g := g.onMill fun x => { x with msgs := x.msgs.map fun m => { m with saved := some m.phase } }
  ([0, 2, 7] : List Nat).foldl (fun g t => (g.resume t false).2.2) g

/-- The message of a started FW command. -/
def Agg.fwHeld (g : Agg) (op : Nat) : Option Msg := g.mill.msgs.find? fun m => m.opcode == op && m.phase == .started

/-- The started FW_ACTIVATE answered. -/
def Agg.activateEnd (g : Agg) (status result : Nat) : Agg :=
  match g.fwHeld 0x11 with
  | none => g
  | some m => g.putMsg m (.done status (leBytes 1 result ++ leBytes 4 g.version))

/-- FW_VERIFY (R334); one that a restart re-executes starts the checks again (R324). -/
def Agg.fwVerify (g : Agg) (src : MsgFrom) : Agg :=
  match g.msgFor src 0x10 with
  | none => g
  | some m =>
    if g.updPhase = 0 ∨ g.updPhase = 2 ∨ (g.updPhase = 1 ∧ m.saved = some .started) then
      ((g.putMsg m .started).onMill fun x => { x with verifying := some false, staged := none }).setPhase 1
    else g.putMsg m (.done 3 [])

/-- The ROM loader boots an image (R333): MILLRACE enables itself, and every core runs its home tasks. -/
def Agg.boot (g : Agg) (i : ImageId) : Agg :=
  let fit := decide (0 < g.coresFit)
  let g := g.onPart fun p => if p.pstate 2 = .off ∧ fit = true then p.modHdr 2 fun h => { h with state := .active } else p
  let g := g.onMill fun x => { x with slot := 0, checked := (List.range 8).foldl (fun m t => sput 0 m t g.now) x.checked }
  (g.setRunning i).fwUpdate

/-- IMAGE_VERIFY_DONE (R333, R334): of FW_VERIFY, or of a ROM_LOAD in DOWN, which finds no slot in a FAULTED DRAM (R450). -/
def Agg.verifyDone (g : Agg) (crypt : Nat) : Agg :=
  match g.mill.verifying with
  | none => g
  | some rom =>
    let h := g.stagedHeader
    let i := imageId h
    let cause := imageCause h crypt (g.part.fld 0x2070 0 16)
    let g := g.onMill fun x => { x with verifying := none }
    let g := if cause = 0 then g else g.authFail h cause 0
    if rom then (if cause = 0 ∧ g.part.pstate 0x20 ≠ .faulted then (g.copyImage 0).boot i else g)
    else
      let g := match g.fwHeld 0x10 with
        | some m => g.putMsg m (.done (if cause = 0 then 0 else if cause = 5 then 6 else 5) (leBytes 4 i.version ++ leBytes 2 i.svn))
        | none => g
      if cause = 0 then ((g.copyImage (1 - g.mill.slot)).onMill fun x => { x with staged := some i }).setPhase 2
      else g.setPhase 0

/-- FW_ACTIVATE (R334, R335). -/
def Agg.fwActivate (g : Agg) (src : MsgFrom) : Agg :=
  match g.msgFor src 0x11 with
  | none => g
  | some m =>
    if g.updPhase = 2 then ((g.putMsg m .started).onMill fun x => { x with storm := 0 }).setPhase 3
    else g.putMsg m (.done (if g.updPhase = 0 then 4 else 3) [])

/-- UPDATE_FALLBACK recorded (R340). -/
def Agg.fallbackRecord (g : Agg) (result resumed left : Nat) : Agg :=
  g.onPart fun p => p.raiseEach 2 23 { detail := leBytes 1 result ++ leBytes 4 resumed ++ leBytes 4 left }

/-- A handoff refused or stormed (R334): the old image resumes. -/
def Agg.handoffBack (g : Agg) (result : Nat) : Agg :=
  if g.updPhase ≠ 3 then g
  else
    let left := match g.mill.staged with | some i => i.version | none => 0
    let g := (g.setResult result).activateEnd 4 result
    let g := (g.onMill fun x => { x with staged := none }).resumeAll
    (g.setPhase 0).fallbackRecord result g.version left

/-- NEW_REFUSE (R334). -/
def Agg.newRefuse (g : Agg) : Agg := g.handoffBack 2

/-- HANDOFF_TIMEOUT (R334). -/
def Agg.handoffTimeout (g : Agg) : Agg :=
  if g.updPhase = 3 then (g.reach (g.mill.phaseAt + g.part.num 0x207C * 1000000)).newRefuse else g

/-- NEW_READY (R334, R335): refused where the new image cannot read the old one's schema. -/
def Agg.newReady (g : Agg) : Agg :=
  match g.mill.staged with
  | none => g
  | some i =>
    if g.updPhase ≠ 3 then g
    else if (match g.mill.running with | some o => decide (o.schema < i.schemaMin) | none => false) then g.newRefuse
    else
      let old := g.version
      let g := (g.setOld g.mill.running).onMill fun x => { x with staged := none, slot := 1 - x.slot }
      let g := ((g.setRunning i).setResult 1).activateEnd 0 1
      let g := (g.resumeAll).setPhase 4
      g.event 0x8003 ([1] ++ leBytes 4 old ++ leBytes 4 i.version)

/-- The image in probation committed (R334): FLASH writes it as primary and the old one as backup. -/
def Agg.commit (g : Agg) : Agg :=
  (((g.show (.flash g.version (g.part.num 0x2068))).setOld none).setResult 4).setPhase 0

/-- FW_COMMIT (R334). -/
def Agg.fwCommit (g : Agg) (src : MsgFrom) : Agg :=
  match g.msgFor src 0x12 with
  | none => g
  | some m =>
    if g.updPhase = 4 then (g.putMsg m (.done 0 [])).commit
    else g.putMsg m (.done (if g.updPhase = 1 then 3 else 4) [])

/-- PROBATION_END (R334). -/
def Agg.probationEnd (g : Agg) : Agg :=
  let s := g.part.num 0x2078
  if g.updPhase = 4 ∧ s ≠ 0 then (g.reach (g.mill.phaseAt + s * 1000000000)).commit else g

/-- The image in probation given up for the old one (R334, R335). -/
def Agg.revert (g : Agg) (result : Nat) : Agg :=
  match g.mill.old with
  | none => g
  | some o =>
    let left := g.version
    let g := (((g.setRunning o).setOld none).setResult result).onMill fun x => { x with slot := 1 - x.slot }
    (g.resumeAll.setPhase 0).fallbackRecord result o.version left

/-- FW_REVERT (R334). -/
def Agg.fwRevert (g : Agg) (src : MsgFrom) : Agg :=
  match g.msgFor src 0x13 with
  | none => g
  | some m =>
    if g.updPhase = 2 then ((g.onMill fun x => { x with staged := none }).putMsg m (.done 0 (leBytes 4 g.version))).setPhase 0
    else if g.updPhase = 4 then
      let v := match g.mill.old with | some o => o.version | none => g.version
      (g.putMsg m (.done 0 (leBytes 4 v))).revert 5
    else g.putMsg m (.done (if g.updPhase = 1 then 3 else 4) [])

/-- BOOT_LOAD_DONE (R333): the primary image, else the backup, else DOWN. -/
def Agg.bootLoad (g : Agg) (a b : ImageSeen) : Agg :=
  if g.part.fld 0x2044 0 3 ≠ 0 ∨ g.mill.running.isSome then g
  else
    let svn := g.part.fld 0x2070 0 16
    let ca := imageCause a.header a.crypt svn
    if ca = 0 then g.boot (imageId a.header)
    else
      let g := g.authFail a.header ca 1
      let cb := imageCause b.header b.crypt svn
      if cb = 0 then g.boot (imageId b.header)
      else (((g.authFail b.header cb 2).onPart fun p => p.raise 2 19 { detail := [1] })).fwUpdate

/-- CTL.ROM_LOAD (R333): in DOWN, unless the verifier runs (log entry 144). -/
def Agg.romLoad (g : Agg) : Agg :=
  if g.part.fld 0x2044 0 3 = 5 ∧ g.mill.verifying.isNone then g.onMill fun x => { x with verifying := some true } else g

/-! ### Watchdogs and checkpoints -/

/-- A watchdog expiry under a new image (R334): the third falls back. -/
def Agg.stormCount (g : Agg) : Agg :=
  if g.updPhase = 3 ∨ g.updPhase = 4 then
    let n := g.mill.storm + 1
    let g := g.onMill fun x => { x with storm := n }
    if n < 3 then g else if g.updPhase = 3 then g.handoffBack 3 else g.revert 6
  else g

/-- A core's watchdog expiries within the last 60 s (R325, R339). -/
def Agg.recentExpiries (g : Agg) (c : Nat) : List Nat :=
  (sget [] g.mill.expiries c).filter fun t => decide (g.now < t + 60000000000)

/-- WATCHDOG_EXPIRY (R323–R325): the core resets or is retired, and its tasks are adopted; `lost` names the tasks of which no
checkpoint passed its CRC. FW commands held by an expiring supervisor end RESTARTED. -/
def Agg.watchdog (g : Agg) (c : Nat) (lost : List Nat) : Agg :=
  if g.coreState c ≠ 0 ∨ g.mill.running.isNone then g
  else
    let super := g.coresRun.head? == some c
    let es := g.now :: g.recentExpiries c
    let n := es.length
    let g := g.onMill fun x => { x with expiries := sput [] x.expiries c es }
    let g := g.onPart fun p => ((p.setFld (0x2080 + 4 * c) 8 8 n).setFld (0x2080 + 4 * c) 0 2 (if 3 ≤ n then 3 else 1)).raise 2 16
      { unit := c, detail := leBytes 1 c ++ leBytes 1 n ++ leBytes 8 p.now }
    let g := if 3 ≤ n then
        (g.onPart fun p => p.raiseEach 2 18 { unit := c, detail := leBytes 1 c ++ leBytes 1 g.coresFit }).event 0x8002
          (leBytes 1 c ++ leBytes 1 n)
      else g
    let g := if super then (g.resume 8 false).2.2 else g
    let g := (g.coreTasks c).foldl (fun g t => g.adopt t c (lost.contains t)) g
    let g := if 3 ≤ n then g.onPart fun p => p.setFld (0x2080 + 4 * c) 16 8 0 else g
    g.stormCount.fwUpdate

/-- The tasks that no core in RUN hosts (R323). -/
def Agg.strayTasks (g : Agg) : List Nat :=
  (List.range 8).filter fun t => !(g.coresRun.any fun k => g.part.bit (0x2080 + 4 * k) (16 + t))

/-- CORE_SELF_CHECK_DONE (R323): the core is a SPARE, and tasks that found no core when theirs was lost are adopted
(DESIGN CHOICE: log entry 212). -/
def Agg.selfCheck (g : Agg) (c : Nat) : Agg :=
  if g.coreState c = 1 then
    let g := g.onPart fun p => p.setFld (0x2080 + 4 * c) 0 2 2
    let g := if g.mill.running.isSome then g.strayTasks.foldl (fun g t => g.adopt t (g.taskCore t) false) g else g
    g.fwUpdate
  else g

/-- CHECKPOINT of a task (R322, R323): its items' phases are kept, and it returns to its home core. -/
def Agg.checkpoint (g : Agg) (t : Nat) : Agg :=
  if g.mill.running.isNone then g
  else
  let g := g.onMill fun x => { x with
    checked := sput 0 x.checked t g.now
    msgs := x.msgs.map fun m => if m.heldBy t || (t == 0 && m.task == 8) then { m with saved := some m.phase } else m }
  let h := homeCore t
  if g.taskCore t ≠ h ∧ (g.coreState h = 0 ∨ g.coreState h = 2) ∧ g.taskCore t ≠ 0xFF then
    ((g.placeTask t h).onPart fun p => p.setFld (0x2080 + 4 * h) 0 2 0).fwUpdate
  else g

/-- CHECKPOINT_LATE (R322). -/
def Agg.checkpointLate (g : Agg) (t : Nat) : Agg :=
  if !g.fwRuns then g
  else
    let s := sget 0 g.mill.checked t
    let g := g.reach (s + 1000000)
    g.onPart fun p => p.raise 2 25
      { unit := t, detail := leBytes 1 t ++ leBytes 1 (g.taskCore t) ++ leBytes 4 ((p.now - s) / 1000) }

end Sys2Proof.Machine
end

