-- ==== Sys2Proof/Machine/MillHost.lean ====
section
/-! DEFINITION. The host's presence (R336–R338, R362): the host state machine and the DMA gate; and host writes into LPDDR5X
through BAR2 (R327, R360). -/

namespace Sys2Proof.Machine

/-- HOST_STATE: 0 DETACHED, 1 ATTACH_PENDING, 2 ATTACHED, 3 HOST_ABSENT. -/
def Agg.hostState (g : Agg) : Nat := g.part.fld 0x2048 0 2

/-- HOST_STATE set. -/
def Agg.setHost (g : Agg) (v : Nat) : Agg := g.onPart fun p => p.setFld 0x2048 0 2 v

/-- The DMA gate closes (R337); the span an ABSENT_SUMMARY is to report begins, if none has. -/
def Agg.gateClose (g : Agg) : Agg :=
  (g.onPart fun p => p.setBit 0x2048 2 false).onMill fun x =>
    { x with absentFrom := match x.absentFrom with | none => some g.now | some t => some t }

/-- The DMA gate opens: vectors left pending in the PBA fire (R361). -/
def Agg.gateOpens (g : Agg) : Agg :=
  let g := g.onPart fun p => p.setBit 0x2048 2 true
  let vs := (List.range 128).filter fun v => sget false g.est.pba v
  vs.foldl (fun g v => g.vector v) (g.onEst fun e => { e with pba := [] })

/-- HEARTBEAT (R336). -/
def Agg.heartbeat (g : Agg) (w : W32) : Agg :=
  let gen := w.toNat / 65536
  if gen ≠ g.generation then
    g.onPart fun p => (p.inc 0x20AC).raise 2 24 { detail := leBytes 2 gen ++ leBytes 2 g.generation ++ [0] }
  else if g.hostState = 1 then g.onMill fun x => { x with hbFrom := g.now }
  else if g.hostState = 2 then (g.onMill fun x => { x with hbFrom := g.now }).onPart fun p => p.setNum64 0x2058 p.now
  else g

/-- ATTACH (R336): accepted with GENERATION plus 1 in every host state, refused otherwise; an open gate closes. -/
def Agg.attach (g : Agg) (w : W32) : Agg :=
  let gen := w.toNat / 65536
  if gen ≠ (g.generation + 1) % 65536 then g.onPart fun p => p.accessErr 2 0x2050 w true
  else
    let g := if g.gateOpen then g.gateClose else g
    let g := (g.setHost 1).onPart fun p => p.setFld 0x2048 16 16 gen
    (g.ringsReset.pairsReset).onMill fun x => { x with hbFrom := g.now }

/-- An instant of an event-log record that arrived in a span (R336): `last` picks the last one, else the first; a free value
where the log holds none (R331 states none). -/
def Agg.arrival (g : Agg) (start : Nat) (last : Bool) : Nat × Agg :=
  let ts := ((sget [] g.conf.rings 16).map fun e => e.time).filter fun t => decide (start ≤ t)
  match (if last then ts.getLast? else ts.head?) with
  | some t => (t, g)
  | none =>
    let (a, p) := g.part.draw32
    let (b, p) := p.draw32
    (a.toNat + 4294967296 * b.toNat, { g with part := p })

/-- The pending ABSENT_SUMMARY sent as an event (R331, R336, R337); OVERWRITTEN when the event log has dropped a record of the
span. -/
def Agg.absentSummary (g : Agg) (start : Nat) : Agg :=
  let (a, g) := g.arrival start false
  let (b, g) := g.arrival start true
  let g := g.event 0x8004 (leBytes 8 start ++ leBytes 8 g.now ++ leBytes 8 a ++ leBytes 8 b ++
    leBytes 1 (b2n (decide (start < g.conf.overwritten))))
  g.onMill fun x => { x with absentFrom := none }

/-- CTL.ATTACH_DONE (R336): from ATTACH_PENDING alone; nothing in DETACHED, refused in ATTACHED and HOST_ABSENT. -/
def Agg.attachDone (g : Agg) (w : W32) : Agg :=
  match g.hostState with
  | 0 => g
  | 1 =>
    let from_ := g.mill.absentFrom
    let g := (g.setHost 2).gateOpens
    let g := match from_ with | some t => g.absentSummary t | none => g
    let start := match from_ with | some t => t | none => 0
    g.onPart fun p => p.raise 2 21 { detail := leBytes 2 g.generation ++ leBytes 8 start }
  | _ => g.onPart fun p => p.accessErr 2 0x2040 w true

/-- CTL.DETACH (R336). -/
def Agg.detach (g : Agg) : Agg :=
  match g.hostState with
  | 1 => g.setHost 0
  | 2 => (g.setHost 0).gateClose
  | _ => g

/-- Entry to HOST_ABSENT (R336, R340): cause 1 timeout, 2 BUS_LOSS. -/
def Agg.hostGone (g : Agg) (cause : Nat) : Agg :=
  if g.hostState = 1 ∨ g.hostState = 2 then
    ((g.setHost 3).gateClose).onPart fun p => (p.inc 0x20B0).raiseEach 2 20
      { detail := leBytes 1 cause ++ leBytes 2 g.generation ++ leBytes 8 (p.num64 0x2058) }
  else g

/-- HOST_TIMEOUT (R336). -/
def Agg.hostTimeout (g : Agg) : Agg :=
  if g.part.bit 0x2040 0 && (g.hostState == 1 || g.hostState == 2) then
    (g.reach (g.mill.hbFrom + g.part.num 0x2054 * 1000000)).hostGone 1
  else g

/-- BUS_LOSS (R362, R390): cause 1 link down or PERST_N, 2 Bus Master Enable cleared, 3 Function Level Reset, which returns
configuration space, ATS Enable with it, and the MSI-X table to reset. -/
def Agg.busLoss (g : Agg) (cause : Nat) : Agg :=
  let g := g.onPart fun p => (p.raise 4 20
    { detail := leBytes 1 cause ++ leBytes 1 (p.fld 0x4040 1 3) ++ leBytes 1 (p.fld 0x4040 4 3) }).setBit 0x4074 2 true
  let g := if cause = 1 then g.onPart fun p => p.setBit 0x4040 0 false
    else if cause = 3 then (g.onPart fun p => p.setBit 0x4040 8 false).onEst fun e => { e with msix := [] }
    else g
  g.hostGone 2

/-- PCIE_LINK_UP (R359, R362): always in Flit mode at 64 GT/s; the endpoint is held in reset while HOST_EN is 0 (R408). -/
def Agg.pcieUp (g : Agg) (speed width : Nat) (flit ats : Bool) : Agg :=
  if g.part.bit 0x40 10 then
    g.onPart fun p => p.setFld 0x4040 0 9
      (1 + 2 * (speed % 8) + 16 * (width % 8) + 128 * b2n (flit || speed == 6) + 256 * b2n ats)
  else g

/-- A host write through BAR2 (R327, R334, R360, R450), within one 4 KiB block as PCI Express writes are. -/
def Agg.bar2Write (g : Agg) (addr : Nat) (bs : List Byte) : Agg :=
  let put (g : Agg) : Agg := g.onChip fun c => { c with dram := Mem.wrBytes c.dram addr (bs.take (4096 - addr % 4096)) }
  let refuse (g : Agg) : Agg := g.onPart fun p => p.inc 0x4068
  let memRefuse (g : Agg) : Agg := g.onPart fun p => p.inc 0x20B4
  if (fwRegion ≤ addr ∧ addr < stagingBase) ∨ (0xF8C000000 ≤ addr ∧ addr < 0xF90000000) then memRefuse g
  else if !g.part.active 0x20 then refuse g
  else if stagingBase ≤ addr ∧ addr < stagingBase + 0x4000000 then
    if g.updPhase = 1 ∨ g.updPhase = 3 then memRefuse g
    else if g.updPhase = 2 then ((put g).onMill fun x => { x with staged := none }).setPhase 0
    else put g
  else if (0xF90000000 ≤ addr ∧ addr < 0xF91000000) ∨ (0xFA0000000 ≤ addr ∧ addr < 0x1000000000) then put g
  else refuse g

end Sys2Proof.Machine
end

