-- ==== Sys2Proof/Machine/AggChip.lean ====
section
/-! DEFINITION. The aggregator chip (chapters 17 and 19): supplies, straps, hardware-ready, RESET_N, the reference, LPDDR5X,
temperature, the board record and the tray parts. -/

namespace Sys2Proof.Machine

/-! ### Supplies, straps and readiness -/

/-- A supply's operating range and the value at or below which state is lost, in 1/8 mV, in the row order of the table
Supplies (R439). -/
def supplyRange : Nat → Nat × Nat × Nat
  | 0 => (5200, 6800, 4800) | 1 => (5824, 6184, 5600) | 2 => (9312, 9888, 8800) | 3 => (3880, 4120, 3600)
  | 4 => (8144, 8656, 7840) | 5 => (13680, 15120, 12800) | 6 => (13968, 14832, 13200) | _ => (5824, 6184, 5600)

/-- The aggregator at supplies valid (R54, R440, R445) with its straps sampled: every register at its reset value. -/
def Agg.powerOn (role idMode hostEn : Bool) : Agg :=
  { phase := .valid
    part := ({ isAgg := true } : Part).setFld 0x40 8 3 (b2n role + 2 * b2n idMode + 4 * b2n hostEn) }

/-- SUPPLIES_VALID (R440). -/
def Agg.suppliesValid (g : Agg) (role idMode hostEn : Bool) : Agg :=
  if g.phase = .off then Agg.powerOn role idMode hostEn else g

/-- AGG_POWER_LOSS (R439): all state is lost and every VDDIO output is high-impedance (R441). -/
def Agg.powerLoss (_ : Agg) : Agg := { phase := .off, part := { isAgg := true } }

/-- A value of VDD_CORE is also what CHIP_VDD shows (R453). -/
def Agg.coreVolt (g : Agg) (i v : Nat) : Agg := if i = 0 then g.onPart fun p => p.setFld 0x64 0 16 v else g

/-- SUPPLY_RANGE (R439, R453): supply `i` at `v`, 1/8 mV. At or below its loss threshold all state goes. -/
def Agg.supplyOut (g : Agg) (i v : Nat) : Agg :=
  let (lo, hi, keep) := supplyRange i
  if g.phase = .off then g
  else if v ≤ keep then g.powerLoss
  else if lo ≤ v ∧ v ≤ hi then g.coreVolt i v
  else ((g.coreVolt i v).onChip fun c => { c with outOfRange := sput false c.outOfRange i true }).onPart fun p =>
    p.raise 0 21 { unit := i, detail := leBytes 1 i ++ leBytes 2 v }

/-- SUPPLY_WITHIN_RANGE (R439). -/
def Agg.supplyIn (g : Agg) (i v : Nat) : Agg :=
  let (lo, hi, _) := supplyRange i
  if g.phase ≠ .off ∧ lo ≤ v ∧ v ≤ hi then
    (g.coreVolt i v).onChip fun c => { c with outOfRange := sput false c.outOfRange i false }
  else g

/-- LPDDR5X training complete (R449, R451). -/
def Agg.dramTrained (g : Agg) : Agg :=
  g.onPart fun p => (((p.setFld 0x20044 0 8 0xFF).setBit 0x20044 8 false).setFld 0x2004C 0 16 64).event 0x20

/-- LPDDR5X training failed (R450, R452): the page faults, and Millrace has no slot to run from. `cause` 1 training, 2
capacity, 3 mode-register read; `gib` is the capacity found. -/
def Agg.dramFailed (g : Agg) (ch cause gib : Nat) : Agg :=
  let g := g.onPart fun p =>
    let p := if cause = 1 then (p.setFld 0x20044 0 8 0xFF).setBit 0x20044 (ch % 8) false else p.setFld 0x20044 0 8 0xFF
    let p := p.setFld 0x2004C 0 16 gib
    let p := p.raise 0x20 16 { unit := ch, detail := leBytes 1 ch ++ leBytes 1 cause }
    let p := if p.pstate 0x20 = .off then p.modHdr 0x20 fun h => { h with state := .enabling } else p
    p.pageFault 0x20 16
  (g.onMill fun x => { x with running := none }).fwUpdate

/-- DRAM_TRAINING_DONE (R450): complete, or failed on a channel. -/
def Agg.dramDone (g : Agg) (fail : Option (Nat × Nat × Nat)) : Agg :=
  match fail with
  | none => g.dramTrained
  | some (ch, cause, gib) => g.dramFailed ch cause gib

/-- CTL.RETRAIN of DRAM (R451): every channel trains again. -/
def Agg.dramRetrain (g : Agg) : Agg := g.onPart fun p => p.setFld 0x20044 0 8 0

/-- TEMP_DERATE (R449, R452): the MR4 reading changes the refresh rate, 0 normal, 1 doubled, 2 quadrupled. -/
def Agg.tempDerate (g : Agg) (ch : Nat) (derate : Fin 3) (mr4 : Nat) : Agg :=
  if g.part.fld 0x20044 9 2 = derate.val then g
  else g.onPart fun p => (p.setFld 0x20044 9 2 derate.val).raise 0x20 18
    { unit := ch, detail := leBytes 1 ch ++ leBytes 1 mr4 }

/-- A page that is ACTIVE at hardware-ready (R408). -/
def Agg.selfActive (g : Agg) (page : Nat) : Agg :=
  if g.part.pstate page = .faulted then g else g.onPart fun p => p.modHdr page fun h => { h with state := .active }

/-- HARDWARE_READY (R408, R446): 2 ms after supplies valid or after RESET_N rose. -/
def Agg.hardwareReady (g : Agg) : Agg :=
  match g.chip.readyFrom with
  | none => g
  | some t =>
    if g.phase ≠ .valid ∧ g.phase ≠ .held then g
    else
      let g := { g.onPart (fun p => p.reach (t + 2000000)) with phase := .ready }
      let g := if g.part.pstate 0x20 ≠ .faulted ∧ g.part.fld 0x20044 0 8 ≠ 0xFF then g.dramTrained else g
      let g := [0, 3, 4, 0x20].foldl (fun g p => g.selfActive p) g
      let g := if g.interior then g
        else (List.range 16).foldl (fun g l => (g.selfActive (0x10 + l)).laneAct l fun p s => linkEnable p s (some l)) g
      let g := g.onEst fun e => { e with ptpFrom := g.now }
      (g.onChip fun c => { c with reading := true, readyFrom := none }).vrmDrive

/-! ### RESET_N -/

/-- RESET_N_ASSERT (R446): the endpoint stops, the lanes are held in reset, LPDDR5X enters self-refresh. -/
def Agg.resetAssert (g : Agg) : Agg :=
  if g.phase = .off ∨ (g.phase = .held ∧ g.chip.readyFrom = none) then g
  else
    let g := { g with phase := .held }
    let g := g.onPart fun p => (((p.modHdr 0x20 fun h => { h with state := .off }).setBit 0x20044 8 true).setBit 0x4040 0
      false).setBit 0x2048 2 false
    g.onChip fun c => { c with readyFrom := none, reading := false }

/-- Registers RESET_N leaves: RWL fields and what Levee keeps (R54, R349, R446). -/
def resetKeeps (addr : Nat) : Bool :=
  addr == 0x68 || addr == 0x2070 || addr == 0x304C || addr == 0x3054 || addr == 0x305C || addr == 0x3060 ||
    addr == 0x3064 || addr == 0x306C || addr == 0x3070 || addr == 0x308C || addr == 0x3090 || addr == 0x3094 ||
    addr == 0x3098 || decide (0x3100 ≤ addr ∧ addr < 0x3780)

/-- The part of the aggregator after RESET_N (R54, R446). -/
def Agg.resetPart (g : Agg) (idMode hostEn : Bool) : Part :=
  let p : Part :=
    { isAgg := true
      regs := g.part.regs.filter fun e => resetKeeps e.1
      hdrs := (g.part.hdrs.filter fun e => e.2.lock).map fun e => (e.1, { resetHdr true e.1 with lock := true })
      disc := { refLoss := g.part.disc.refLoss }
      fresh := g.part.fresh }
  (p.setFld 0x3044 0 2 (g.part.fld 0x3044 0 2)).setFld 0x40 8 3
    (g.part.fld 0x40 8 1 + 2 * b2n idMode + 4 * b2n hostEn)

/-- Levee's own state after RESET_N: it ran on, and its instants count from the new time. -/
def LeveeState.rebase (v : LeveeState) (now : Nat) : LeveeState :=
  { v with
    chans := v.chans.map fun e =>
      let since := e.2.safe.map fun x => (x.1, match x.2 with | some t => some (t - (now : Int)) | none => none)
      (e.1, { e.2 with safe := since })
    offAt := v.offAt.map fun e => (e.1, match e.2 with | some t => some (t - now) | none => none)
    stopping := false
    cancelled := [] }

/-- RESET_N_RISE (R405, R445, R446): registers reset, ID_MODE and HOST_EN resampled; the role stays, and a ROLE_SEL that
differs raises TOPOLOGY with cause 3, whose node bytes R319 does not give here (free). The recorder, LPDDR5X and the tables
in memory survive. -/
def Agg.resetRise (g : Agg) (role idMode hostEn : Bool) : Agg :=
  if g.phase ≠ .held ∨ g.chip.readyFrom ≠ none then g
  else
    let d := g.conf.drift
    let h : Agg :=
      { phase := .held
        part := g.resetPart idMode hostEn
        conf := { drift := { entity := d.entity, rules := d.rules, model := d.model }, budget := g.conf.budget
                  topo := g.conf.topo, strag := g.conf.strag, stragAge := g.conf.stragAge, stragTold := g.conf.stragTold
                  stragSeq := g.conf.stragSeq, rings := g.conf.rings, overwritten := g.conf.overwritten }
        lev := g.lev.rebase g.now
        est := { route := g.est.route, fence := g.est.fence }
        chip := { outOfRange := g.chip.outOfRange, tripped := g.chip.tripped, dram := g.chip.dram } }
    let h := h.throttle 0 0
    if role = h.interior then h
    else
      let (a, p) := h.part.draw32
      { h with part := p.raise 1 16 { detail := leBytes 1 3 ++ leBytes 4 a.toNat } }

/-! ### The reference -/

/-- REF156_LOSS (R443, R65): the counter goes to backup, every lane loses lock and the Ethernet ports go down. -/
def Agg.refLost (g : Agg) : Agg :=
  if g.part.disc.refLoss then g
  else
    let (y, a) := g.part.disc.lose g.discCfg g.now
    let g := g.discDo y a 0
    let g := (List.range 16).foldl (fun g l => g.laneAct l fun p s => linkRestart p s (some l) 1) g
    (g.ethDown 0 1).ethDown 1 1

/-- REF156_RETURN (R443): the lanes adapt afresh. -/
def Agg.refBack (g : Agg) : Agg :=
  let g := g.onPart fun p => { p with disc := p.disc.regain }
  (List.range 16).foldl (fun g l => g.setPort l { g.port l with trainSince := g.now }) g

/-! ### Temperature -/

/-- A reading of the hottest sensor (R453): THERM_WARN above TEMP_WARN. -/
def Agg.chipTemp (g : Agg) (t : W16) : Agg :=
  let g := g.onPart fun p => p.setFld 0x60 0 16 t.toNat
  if signed (g.part.fld 0x68 0 16) 16 < t.toInt then
    g.onPart fun p => p.raise 0 20 { detail := leBytes 2 t.toNat }
  else g

/-- THERMAL_TRIP (R453): at 125 °C every VRM_EN falls and every SHUTDOWN_N asserts, until power is removed. -/
def Agg.thermalTrip (g : Agg) : Agg :=
  let g := if signed (g.part.fld 0x60 0 16) 16 < 0x7D0 then g.chipTemp 0x7D0 else g
  ((g.onChip fun c => { c with tripped := true }).onPart fun p => p.setFld 0x3060 0 16 0xFFFF).vrmDrive

/-! ### Records -/

/-- The board record's AGG section applied (R404): identity, MIN_SVN where it is stricter, and the parents while CONFLUENCE is
OFF; CONFLUENCE and both ETH pages then enable themselves (R408). -/
def Agg.applyAgg (g : Agg) (b : List Byte) : Agg :=
  let g := g.onPart fun p =>
    let p := ((p.setNum 0x1048 (dget b 0 4)).setNum64 0x44 (dget b 12 6)).setBit 0x40 4 true
    let p := p.setFld 0x2070 0 16 (max (p.fld 0x2070 0 16) (dget b 24 2))
    if p.pstate 1 = .off then (p.setNum 0x104C (dget b 4 4)).setNum 0x1050 (dget b 8 4) else p
  let g := g.onChip fun c => { c with subsys := dget b 20 4 }
  [1, 8, 9].foldl (fun g page => g.onPart fun p => (p.enableInput page 1).2) g

/-- TRAY_PARTS of the board record (R398, R410): entries of KIND, BUS, ADDR, DIE. -/
def readParts : Nat → List Byte → List (Nat × Nat × Nat × Nat)
  | 0, _ => []
  | n + 1, b => (dget b 0 1, dget b 1 1, dget b 2 1, dget b 3 1) :: readParts n (b.drop 4)

/-- BOARD_RECORD_DONE (R404–R406, R410): how the read ended, and whether the signature verified. Limits loaded before a
RESET_N are not loaded again (R405). -/
def Agg.boardRecord (g : Agg) (r : IdentRead) (sigOk : Bool) : Agg :=
  if !g.chip.reading then g
  else
    let g := g.onChip fun c => { c with reading := false }
    let (res, ss, bs) : Nat × List (Nat × List Byte) × List Byte := match r with
      | .absent => (2, [], [])
      | .readErr n => (3, [], List.replicate n 0)
      | .record bs =>
        let (j, ss) := idJudge bs [6, 7]
        if j = 1 ∧ idSigned bs = true ∧ sigOk = false then (6, [], bs) else (j, ss, bs)
    let good := res = 1
    let signed_ := good && idSigned bs
    let g := g.onPart fun p => (p.setFld 0x40 0 3 res).setBit 0x40 3 signed_
    let loaded := g.part.bit 0x3044 0
    let g := if loaded then g
      else if signed_ then
        (match idSect ss 0x21 with | some b => g.loadLevee b | none => g.loadBuiltIn 1)
      else g.loadBuiltIn (if res = 1 ∨ res = 6 then 2 else if res = 2 ∨ res = 3 then 1 else 3)
    let g := match idSect ss 0x22 with
      | some b =>
        let ps := readParts (min 4096 (b.length / 4)) b
        (g.onChip fun c => { c with parts := ps }).onPart fun p => p.setFld 0x4C 0 13 ps.length
      | none => g
    match idSect ss 0x20 with
    | some b => g.applyAgg b
    | none => g.onPart fun p => p.raiseEach 0 16
        { detail := leBytes 1 res ++ leBytes 1 (b2n (res == 6)) ++ leBytes 4 bs.length }

/-- PART_RECORD_READ of tray part `k` (R407, R410), while firmware runs. -/
def Agg.partRead (g : Agg) (k : Nat) (r : IdentRead) : Agg :=
  if !g.fwRuns then g
  else match g.chip.parts[k]? with
  | none => g
  | some (kind, bus, addr, _) =>
    let res := match r with
      | .absent => 2
      | .readErr _ => 3
      | .record bs => (idJudge bs [kind]).1
    let g := g.onChip fun c => { c with accepted := sput false c.accepted k (res == 1) }
    let g := g.onPart fun p => p.setFld 0x4C 16 13 g.chip.accepted.length
    if res = 1 then g
    else g.onPart fun p => p.raise 0 17
      { unit := k, detail := leBytes 2 k ++ leBytes 1 kind ++ leBytes 1 res ++ leBytes 1 bus ++ leBytes 1 addr }

end Sys2Proof.Machine
end

