-- ==== Sys2Proof/Machine/AggRegs.lean ====
section
/-! DEFINITION. The aggregator's register pages (R33–R50): page life cycle, what each word reads as, the indirect ports, and
what each register's write starts. -/

namespace Sys2Proof.Machine

/-! ### Pages -/

/-- The page of a command ring. -/
def cmdPage (page : Nat) : Option Nat := if 0x40 ≤ page ∧ page < 0x80 then some (page - 0x40) else none
/-- The page of a completion ring. -/
def cplPage (page : Nat) : Option Nat := if 0x80 ≤ page ∧ page < 0xC0 then some (page - 0x80) else none

/-- A page has become ACTIVE. -/
def Agg.pageRuns (g : Agg) (page : Nat) : Agg :=
  match aggClass page with
  | some .tribPort => g.laneAct (page - 0x10) fun p s => linkEnable p s (some (page - 0x10))
  | some .dram => g.onPart fun p => p.setBit 0x20044 8 false
  | some .ring => match cmdPage page with | some i => g.ringRuns i | none => g
  | _ => g

/-- A page starts its enable sequence (R41). -/
def Agg.pageStarts (g : Agg) (page : Nat) : Agg :=
  match cmdPage page with
  | some i => g.ringStarts i
  | none => g

/-- A page leaves ACTIVE. -/
def Agg.pageLeaves (g : Agg) (page : Nat) : Agg :=
  match aggClass page with
  | some .tribPort => g.laneAct (page - 0x10) fun p s => linkDisable p s (some (page - 0x10))
  | some .eth => g.ethOff (page - 8)
  | some .dram => g.onPart fun p => p.setBit 0x20044 8 true
  | _ => g

/-- A page starts to drain (R41, R317, R356, R373). -/
def Agg.pageStops (g : Agg) (page : Nat) (active : Bool) : Agg :=
  let g := if active then g.pageLeaves page else g
  match aggClass page with
  | some .confluence => g.ctxDrain
  | some .levee => g.planStop
  | some .ring => match cmdPage page with | some i => g.ringDrain i | none => g
  | _ => g

/-- A page starts to drain out of FAULTED (R41): the held work is discarded (R317, R373). -/
def Agg.pageDiscards (g : Agg) (page : Nat) : Agg :=
  if page = 1 then g.confDiscard else if page = 2 then g.pairsDiscard
  else match cmdPage page with
    | some i => g.ringDiscard i
    | none => g.pageStops page false

/-- DRAIN of a page in OFF or DRAINING (R41): on LEVEE it acts as PLAN_STOP in every page state (R356). -/
def Agg.pageCancels (g : Agg) (page : Nat) : Agg := if page = 3 then g.planStop else g

/-- A page reaches OFF. -/
def Agg.pageEnds (g : Agg) (page : Nat) : Agg :=
  match cmdPage page, cplPage page with
  | some i, _ => g.ringOff i
  | _, some i => g.cplOff i
  | _, _ => g

/-- What an input of R41 brings on the aggregator. -/
def Agg.pageAct (g : Agg) (page : Nat) (a : PageAct) : Agg :=
  match a with
  | .none => g
  | .starts => g.pageStarts page
  | .stops act => g.pageStops page act
  | .discards => g.pageDiscards page
  | .cancels => g.pageCancels page
  | .ends => g.pageEnds page
  | .runs => g.pageRuns page

/-- A page input applied on the aggregator. -/
def Agg.pageInput (g : Agg) (page : Nat) (r : PageAct × Part) : Agg := ({ g with part := r.2 }).pageAct page r.1

/-- Whether a page holds no work in flight, so that its drain may complete. -/
def Agg.drainIdle (g : Agg) (page : Nat) : Bool :=
  match aggClass page with
  | some .confluence => g.conf.ctxs.isEmpty && g.conf.merged.isEmpty && !g.conf.drift.scoring
  | some .millrace => g.mill.msgs.isEmpty
  | some .levee => !g.part.bit 0x3044 2
  | some .ring => match cmdPage page with | some i => g.ringDrained i | none => true
  | _ => true

/-- ENABLE is refused with CMD_ERR: ETH and CONFLUENCE without an identity (R406), TRIB_PORT in the interior role (R408). -/
def Agg.enableRefused (g : Agg) (page : Nat) : Bool :=
  match aggClass page with
  | some .eth => !g.nodeValid
  | some .confluence => !g.nodeValid
  | some .tribPort => g.interior
  | _ => false

/-- ENABLE of an aggregator page (R41, R406, R408). -/
def Agg.pageEnable (g : Agg) (page data : Nat) : Agg :=
  if g.enableRefused page then g.onPart fun p => p.cmdErr page data
  else g.pageInput page (g.part.enableInput page data)

/-- DRAIN of an aggregator page (R41). -/
def Agg.pageDrain (g : Agg) (page : Nat) : Agg := g.pageInput page (g.part.drainInput page)

/-- ENABLE_DONE of an aggregator page (R41). -/
def Agg.pageEnabled (g : Agg) (page : Nat) : Agg := g.pageInput page (g.part.enabledInput page)

/-- DRAIN_DONE of an aggregator page (R41). -/
def Agg.pageDrained (g : Agg) (page : Nat) : Agg :=
  if g.drainIdle page then g.pageInput page (g.part.drainedInput page) else g

/-- DRAIN_TIMEOUT of an aggregator page (R42). -/
def Agg.pageTimeout (g : Agg) (page : Nat) : Agg := g.onPart fun p => p.drainTimeout page

/-- A page fault of the aggregator (R41) with the causing detail. -/
def Agg.fault (g : Agg) (page cause : Nat) : Agg :=
  let was := g.part.active page
  let g := g.onPart fun p => p.pageFault page cause
  if was && !g.part.active page then g.pageLeaves page else g

/-- SOFT_CLEAR of an aggregator page (R39, R387): HIGH_WATER restarts from what is in flight. -/
def Agg.softClear (g : Agg) (page : Nat) : Agg :=
  let g := g.onPart fun p => p.softClear page
  if page = 4 then
    (g.onPart fun p => p.setFld 0x4054 16 11 g.inflight).onEst fun e => { e with recDropSince := [] }
  else if page = 1 then g.onConf fun c => { c with shedSince := [] }
  else g

/-- A PAGE_CTL write (R38, R41). -/
def Agg.pageCtl (g : Agg) (page : Nat) (w : W32) : Agg :=
  if ctlRefused (g.part.armedAt page 6) w then g.onPart fun p => p.cmdErr page w.toNat
  else
    let g := if wbit w 2 then g.softClear page else g
    let g := if wbit w 3 then g.onPart fun p => p.modHdr page fun h => { h with lock := true } else g
    let g := if wbit w 0 then g.pageEnable page w.toNat else g
    if wbit w 1 then g.pageDrain page else g

/-! ### Indirect memories -/

/-- The indirect port of an aggregator page: the byte offset of its IND_ADDR. -/
def aggPort (page : Nat) : Option Nat :=
  if page = 1 then some 0x1140 else if page = 3 then some 0x3780 else if page = 4 then some 0x4140 else none

/-- Bytes of the memory a SELECT value of an aggregator page names (R318, R353, R387). -/
def aggIndSize (page sel : Nat) : Option Nat :=
  if page = 1 then
    (match sel with
      | 0 => some 8388608 | 1 => some 4096 | 2 => some 8388608 | 3 => some 32768 | 4 => some 8448 | 5 => some 2048
      | _ => none)
  else if page = 3 then (if sel = 0 then some 16384 else none)
  else if page = 4 then (match sel with | 0 => some 4194304 | 1 => some 1048576 | 2 => some 2048 | _ => none)
  else none

/-- A 32-bit word of an aggregator memory. The layout of the overflow slots is not stated: a free value. -/
def Agg.indWord (g : Agg) (page sel a : Nat) : W32 :=
  if page = 1 then
    (match sel with
      | 0 => Mem.rd32 g.conf.drift.entity a | 1 => Mem.rd32 g.conf.drift.rules a | 2 => Mem.rd32 g.conf.drift.model a
      | 3 => Mem.rd32 g.conf.budget a | 4 => Mem.rd32 g.conf.topo a | _ => Mem.rd32 g.conf.strag a)
  else if page = 3 then Mem.rd32 g.lev.plan a
  else (match sel with
    | 0 => Mem.rd32 g.est.route a | 1 => Mem.rd32 g.est.fence a | _ => Config.free32 g.part.fresh)

/-- The region of a class's model in force covers a byte (R303, R318). -/
def Agg.modelInUse (g : Agg) (a : Nat) : Bool :=
  (List.range 8).any fun c => g.driftResident c &&
    (driftRegions g.conf.drift.model (g.driftForce c)).any fun r => decide (r.1 ≤ a ∧ a < r.1 + r.2)

/-- Whether a write to a memory is refused because the region is in use (R50, R318, R353, R387). -/
def Agg.indInUse (g : Agg) (page sel a : Nat) : Bool :=
  if page = 1 then
    (match sel with
      | 0 => true
      | 1 => g.part.bit 0x1040 1
      | 2 => g.modelInUse a || g.modelInUse (a + 7)
      | 5 => true
      | _ => false)
  else if page = 3 then g.part.bit 0x3044 2
  else true

/-- Eight bytes stored into an aggregator memory. A budget entry's OVER and buckets are read-only (R318); a write into a
staged model voids its validation. -/
def Agg.indStore (g : Agg) (page sel a : Nat) (bs : List Byte) : Agg :=
  if page = 3 then g.onLev fun v => { v with plan := Mem.wrBytes v.plan a bs }
  else if page = 1 then
    (match sel with
      | 1 => g.onDrift fun x => { x with rules := Mem.wrBytes x.rules a bs }
      | 2 => (g.onDrift fun x => { x with
          staged := (List.range 8).foldl (fun s c =>
            if (driftRegions x.model (g.driftStaging c)).any fun r => decide (r.1 < a + 8 ∧ a < r.1 + r.2) then
              sput false s c false else s) x.staged }).onDrift fun x =>
                { x with model := Mem.wrBytes x.model a bs, armed := x.armed.filter fun e => sget false x.staged e.1 }
      | 3 =>
        if a % 128 = 0 then
          let ov := Mem.rdLE g.conf.budget (a + 2) 2 / 2 % 2
          let fl := dget bs 2 2
          let bs' := bs.take 2 ++ leBytes 2 (fl - fl / 2 % 2 * 2 + ov * 2) ++ bs.drop 4
          g.onConf fun c => { c with budget := Mem.wrBytes c.budget a bs' }
        else g
      | 4 => g.onConf fun c => { c with topo := Mem.wrBytes c.topo a bs }
      | _ => g)
  else g

/-- An uncorrectable word met by the port (R49, R459): the memories of CONFLUENCE and LEVEE and Estuary's two tables are
configuration or state, so the page faults; of the overflow slots a completion is lost, which one being open (log entry 31). -/
def Agg.indUe (g : Agg) (page sel : Nat) : Agg :=
  if page = 4 ∧ sel = 2 then
    let k := (Config.free32 g.part.fresh).toNat % max 1 g.est.ovf.length
    ((g.onEst fun e => { e with ovf := e.ovf.take k ++ e.ovf.drop (k + 1) }).onPart fun p => { p with fresh := p.fresh + 1 })
  else g.fault page 0x04

/-- A read of IND_DATA of the aggregator (R49). -/
def Agg.indRead (g : Agg) (page port : Nat) (ecc : Ecc) : W32 × Agg :=
  let sel := g.part.fld (port + 8) 8 8
  let a := g.part.num port / 4 * 4
  match aggIndSize page sel with
  | none => (0, g.onPart fun p => p.indStat port 4)
  | some n =>
    if n ≤ a then (0, g.onPart fun p => p.indStat port 4)
    else
      let w := g.indWord page sel a
      let (e, p) := g.part.eccRead page (a / 8) sel ecc 0
      let g := { g with part := { p with fresh := p.fresh + 1 } }
      let (w, st, g) := match e with
        | .ok => (w, 0, g)
        | .ce _ => (w, 1, g)
        | .ue => ((0 : W32), 2, g.indUe page sel)
      (w, g.onPart fun p => (p.indStat port st).indAdvance page port)

/-- A write of IND_DATA of the aggregator (R49, R50). -/
def Agg.indWrite (g : Agg) (page port : Nat) (w : W32) (ecc : Ecc) : Agg :=
  let sel := g.part.fld (port + 8) 8 8
  let a := g.part.num port / 4 * 4
  if (g.part.hdr page).lock then g.onPart fun p => (p.indStat port 8).indAdvance page port
  else match aggIndSize page sel with
  | none => g.onPart fun p => p.indStat port 4
  | some n =>
    if n ≤ a then g.onPart fun p => p.indStat port 4
    else if g.indInUse page sel (a / 8 * 8) then g.onPart fun p => (p.indStat port 8).indAdvance page port
    else if a % 8 = 0 then
      g.onPart fun p => ((p.modHdr page fun h => { h with heldLower := some (indKey sel a, w) }).indStat port 0).indAdvance
        page port
    else
      let done (g : Agg) (lo : W32) (st : Nat) : Agg :=
        (g.indStore page sel (a - 4) (leBytes 4 lo.toNat ++ leBytes 4 w.toNat)).onPart fun p =>
          ((p.modHdr page fun h => { h with heldLower := none }).indStat port st).indAdvance page port
      match (g.part.hdr page).heldLower with
      | some (_, lo) => done g lo 0
      | none =>
        let (e, p) := g.part.eccRead page (a / 8) sel ecc 0
        let g := { g with part := p }
        match e with
        | .ok => done g (g.indWord page sel (a - 4)) 0
        | .ce _ => done g (g.indWord page sel (a - 4)) 1
        | .ue => (g.indUe page sel).onPart fun p => (p.indStat port 2).indAdvance page port

/-! ### Words -/

/-- The word IND_DATA of an aggregator page addresses. -/
def Agg.indAddressed (g : Agg) (page port : Nat) : W32 :=
  let sel := g.part.fld (port + 8) 8 8
  let a := g.part.num port / 4 * 4
  match aggIndSize page sel with
  | none => 0
  | some n => if a < n then g.indWord page sel a else 0

/-- What a block register word of the aggregator reads as. READ_BYTES, WRITE_BYTES and the link error counts of DRAM count
traffic and errors that no command gives (firmware's own): free values (log entries 157 and 168). -/
def Agg.blockWord (g : Agg) (addr : Nat) : W32 :=
  let p := g.part
  let page := addr / 0x1000
  let off := addr % 0x1000
  let w := p.rd addr
  match aggClass page with
  | some .aggGlobal => if 0x80 ≤ off ∧ off < 0x280 then p.summaryWord ((off - 0x80) / 4) else w
  | some .confluence =>
    if off = 0x44 then withBits (withBits (withBits (withBits w 0 1 (b2n g.interior)) 1 1 (b2n g.isRoot)) 3 7
      g.conf.ctxs.length) 10 7 g.conf.jobs.length
    else if off = 0x144 then g.indAddressed page 0x1140 else w
  | some .millrace => if 0x80 ≤ off ∧ off < 0xA0 then withBits w 8 8 (g.recentExpiries ((off - 0x80) / 4)).length else w
  | some .levee =>
    if off = 0x44 then withBits w 8 5 g.planInflight
    else if off = 0x784 then g.indAddressed page 0x3780 else w
  | some .estuary =>
    if off = 0x54 then withBits w 0 11 g.inflight
    else if off = 0x58 then BitVec.ofNat 32 g.est.ovf.length
    else if off = 0x104 then withBits (BitVec.ofNat 32 (dstateCode p.disc.state + 8 * b2n p.disc.unsynced +
      16 * b2n p.disc.stepped + 32 * b2n p.disc.armed)) 6 1 (p.fld 0x4104 6 1)
    else if off = 0x124 then BitVec.ofNat 32 p.now
    else if off = 0x128 then BitVec.ofNat 32 (p.now / 4294967296)
    else if off = 0x12C then BitVec.ofNat 32 p.time.frac
    else if off = 0x144 then g.indAddressed page 0x4140 else w
  | some .ring => match cmdPage page with
    | some i =>
      if off = 0x54 then withBits w 16 11 (g.ring i).flight.length
      else if off = 0x6C then BitVec.ofNat 32 (g.ovfOf i + 65536 * (g.ring i).held.length) else w
    | none => w
  | some .tribPort =>
    if 0x140 ≤ off ∧ off < 0x1F0 ∧ (off - 0x140) % 0x10 = 0 then
      BitVec.ofNat 32 ((g.port (page - 0x10)).depth ((off - 0x140) / 0x10))
    else w
  | some .dram => if 0x50 ≤ off ∧ off < 0xA0 then Config.free32 (p.fresh + (off - 0x50) / 4) else w
  | _ => w

/-- What a word of BAR0 reads as, without the side effects of a read (R34). -/
def Agg.view (g : Agg) (addr : Nat) : W32 :=
  let page := addr / 0x1000
  let off := addr % 0x1000 / 4 * 4
  if !assigned true page off then 0
  else if off < 0x40 then g.part.hdrWord page off
  else g.blockWord (page * 0x1000 + off)

/-! ### Reads and writes -/

/-- A register read of the aggregator (R34, R40, R49). -/
def Agg.barRead (g : Agg) (src : Src) (addr : Nat) (ecc : Ecc) : W32 × Agg :=
  let page := addr / 0x1000
  let off := addr % 0x1000 / 4 * 4
  let at_ := page * 0x1000 + off
  if (aggClass page).isNone then (0, g.onPart fun p => p.accessErr 0 addr 0 false)
  else if !assigned true page off || g.part.accessFault page off false then
    (0, g.onPart fun p => p.accessErr page addr 0 false)
  else if off < 0x40 then (g.part.hdrWord page off, g)
  else
    let plain : W32 × Agg :=
      let (w, p) := g.part.shadowRead src at_ g.blockWord
      (w, { g with part := if page = 0x20 then { p with fresh := p.fresh + 20 } else p })
    match aggPort page with
    | some port => if at_ = port + 4 then g.indRead page port ecc else plain
    | none => plain

/-- Refusals of an aggregator register write that its page's chapter adds to R38. -/
def Agg.writeRefused (g : Agg) (addr old n : Nat) : Bool :=
  let page := addr / 0x1000
  let off := addr % 0x1000
  old != n && (match aggClass page with
    | some .confluence =>
      (decide (0x60 ≤ off ∧ off < 0x70) && (bitsOf n 0 3 == 7 || (bitsOf n 0 3 == 1 && n.testBit 4))) ||
        (off == 0x9C && (List.range 8).any fun q => decide (7 < bitsOf n (4 * q) 4))
    | some .estuary =>
      (off == 0x100 && n.testBit 3 && (n.testBit 4 || (!old.testBit 3 && old.testBit 4))) ||
        (decide (0x80 ≤ off ∧ off < 0x100) && off % 0x20 == 0 && n % 8 != 0)
    | some .ring =>
      (off == 0x44 && n % 4096 != 0) ||
        ((cplPage page).isSome && off == 0x4C &&
          decide (2 ^ g.part.fld (page * 0x1000 + 0x40) 0 5 < (g.part.num (page * 0x1000 + 0x50) + 4294967296 - n) % 4294967296))
    | some .eth => off == 0x40 && bitsOf n 0 2 == 3
    | some .tribPort => decide (0x200 ≤ off ∧ off < 0x300) && g.part.bit (page * 0x1000 + 0x12C) 1
    | _ => false)

/-- A write that loosens an RWL field (R6, R38, R349). -/
def Agg.loosens (g : Agg) (addr old : Nat) (w : W32) (f : FieldSpec) : Bool :=
  match f.acc with
  | .rwl => bitsOf old f.lo f.w != bitsOf w.toNat f.lo f.w &&
      g.looser addr f.lo (bitsOf old f.lo f.w) (bitsOf w.toNat f.lo f.w)
  | _ => false

/-- Whether static fields of a word are fixed now (R38, R339): outside OFF, and for a message ring while its EN is 1. -/
def Agg.staticFixed (g : Agg) (addr : Nat) : Bool :=
  let page := addr / 0x1000
  if page = 2 then g.part.bit addr 4 else g.part.pstate page != .off

/-- What a register write of the aggregator starts once its fields are stored. -/
def Agg.writeActs (g : Agg) (addr old : Nat) (w : W32) : Agg :=
  let page := addr / 0x1000
  let off := addr % 0x1000
  match aggClass page with
  | some .confluence =>
    if off = 0x40 then
      let g := if wbit w 3 then g.freezeCause 0xFF 0 else g
      if wbit w 4 then g.freezeEnd else g
    else if off = 0xF4 then
      let g := if wbit w 0 then g.modelValidate (bitsOf w.toNat 1 3) else g
      if wbit w 4 then g.modelArm (bitsOf w.toNat 1 3) w else g
    else if off = 0x90 then (List.range 16).foldl (fun g l => g.mgmtCheck l) g
    else g
  | some .millrace =>
    if off = 0x40 then
      let g := if wbit w 1 then g.attachDone w else g
      let g := if wbit w 2 then g.detach else g
      if wbit w 3 then g.romLoad else g
    else if off = 0x4C then g.heartbeat w
    else if off = 0x50 then g.attach w
    else g
  | some .levee =>
    if off = 0x40 then
      let g := if wbit w 0 then g.planArm w else g
      if wbit w 1 then g.planStop else g
    else if off = 0x58 then g.shutClear w
    else if off = 0x68 then g.forced
    else if 0x100 ≤ off ∧ off < 0x700 ∧ off % 16 = 0 then
      g.throttle ((off - 0x100) / 16) (g.part.fld (chAddr ((off - 0x100) / 16) + 12) 0 16)
    else g
  | some .estuary =>
    if off = 0x100 then
      let g := if !old.testBit 0 && g.part.bit addr 0 then g.ptpServo else g
      let g := if wbit w 1 then g.ptpArm true else g
      if wbit w 2 then g.ptpArm false else g
    else g
  | some .ring => match cmdPage page with
    | some i => if off = 0x58 ∧ wbit w 0 = true then g.ringResume i none w else g
    | none => g
  | some .eth => if off = 0x40 ∧ wbit w 3 = true then g.ethDown (page - 8) 3 else g
  | some .dram => if off = 0x40 ∧ wbit w 0 = true then g.dramRetrain else g
  | some .tribPort =>
    if off = 0x40 ∧ wbit w 0 = true then g.laneAct (page - 0x10) fun p s => linkRestart p s (some (page - 0x10)) 5
    else if off = 0x12C ∧ wbit w 0 = true then g.onLane (page - 0x10) fun p s => gclArm p s (some (page - 0x10))
    else g
  | _ => g

/-- A DIE_STATE write (R306, R308, R317): TAG only names the dispute that DISPUTE_CLR clears. -/
def Agg.dieStateWrite (g : Agg) (l : Nat) (w : W32) : Agg :=
  let g := if wbit w 4 then g.disputeClear l (w.toNat / 65536) w else g
  if wbit w 7 then g.recClear l else g

/-- A write to a block register word of the aggregator (R38). -/
def Agg.blockWrite (g : Agg) (addr : Nat) (w : W32) : Agg :=
  let page := addr / 0x1000
  let off := addr % 0x1000
  match specOf true page off with
  | none => g
  | some (r, _) =>
    let old := (g.part.rd addr).toNat
    let n := mergeWord r old w.toNat
    let lock := (g.part.hdr page).lock && !(addr == 0x3068)
    if page = 1 ∧ 0x100 ≤ off ∧ off < 0x140 then g.dieStateWrite ((off - 0x100) / 4) w
    else if r.fields.any (fieldRefused lock (g.staticFixed addr) old w.toNat) || r.fields.any (g.loosens addr old w) ||
        g.writeRefused addr old n then
      g.onPart fun p => p.accessErr page addr w true
    else if page = 2 ∧ 0xC0 ≤ off ∧ off < 0x140 ∧ off % 0x20 = 4 then g.reqTail ((off - 0xC0) / 0x20) w
    else if (cmdPage page).isSome ∧ off = 0x4C then g.doorbell (page - 0x40) w
    else
      let g := if old = n then g else g.onPart fun p => p.setNum addr n
      g.writeActs addr old w

/-- A register write of the aggregator (R34, R38, R50). -/
def Agg.barWrite (g : Agg) (addr : Nat) (w : W32) (ecc : Ecc) : Agg :=
  let page := addr / 0x1000
  let off := addr % 0x1000 / 4 * 4
  let at_ := page * 0x1000 + off
  if (aggClass page).isNone then g.onPart fun p => p.accessErr 0 addr w true
  else if !assigned true page off || g.part.accessFault page off true then g.onPart fun p => p.accessErr page addr w true
  else if off = 4 then g.pageCtl page w
  else if off < 0x40 then g.onPart fun p => p.hdrWrite page off w
  else match aggPort page with
    | some port =>
      if at_ = port then g.onPart fun p => (p.wr at_ (w &&& 0xFFFFFFFC)).indMoved page port
      else if at_ = port + 4 then g.indWrite page port w ecc
      else if at_ = port + 8 then g.onPart fun p => (p.wr at_ (w &&& 0x0000FF01)).indMoved page port
      else g.blockWrite at_ w
    | none => g.blockWrite at_ w

/-- Command bits of an aggregator register written, its other fields carrying the values they hold (R38). -/
def Agg.strobe (g : Agg) (addr bits : Nat) : Agg := g.barWrite addr (g.part.kept true addr ||| BitVec.ofNat 32 bits) .ok

end Sys2Proof.Machine
end

