-- ==== Sys2Proof/Machine/AggPower.lean ====
section
/-! DEFINITION. What the aggregator shows after each command: health records stored and offered (R340), what has come due,
MSI-X vectors 0 and 1 (R361), and FAULT_N (R453). -/

namespace Sys2Proof.Machine

/-- The late accounts that may end (R91; the aggregator has no windows): one whose first late result has been delivered. -/
def Part.lateEnds (p : Part) : Part :=
  p.hdrs.foldl (fun q e => if e.2.lateSeen && e.2.lateFirsts.isEmpty then q.lateSummary e.1 else q) p

/-- What has come due or room by the command (R286, R292, R354, R367, R388, R328). -/
def Agg.settle (g : Agg) : Agg := (((((g.cutsDue).ctxSettle).planSettle).ringSettle).vectorsDue).msgSettle

/-- The health records emitted so far stored and offered. -/
def Agg.flushAll (g : Agg) : Agg := Agg.flush (2 * g.part.emitted.length + 8) g

/-- The level conditions of vectors 0 and 1 (R361): each rise fires. -/
def Agg.levelVectors (g : Agg) : Agg :=
  let v0 := g.part.anySummary
  let v1 := g.part.num 0x4074 &&& g.part.num 0x4078 != 0
  let g0 := if v0 && !g.est.vec0 then g.vector 0 else g
  let g1 := if v1 && !g.est.vec1 then g0.vector 1 else g0
  g1.onEst fun e => { e with vec0 := v0, vec1 := v1 }

/-- FAULT_N asserted (R453): SUPPLY_RANGE, a lost REF156, a FAULTED DRAM page, or the thermal trip stands. -/
def Agg.faultNow (g : Agg) : Bool :=
  g.chip.outOfRange.any (fun e => e.2) || g.part.disc.refLoss || g.part.pstate 0x20 == .faulted || g.chip.tripped

/-- What the aggregator does at the end of every command. While it is held in reset no path but Levee's runs (R446). -/
def Agg.finish (g : Agg) : Agg :=
  let g := (List.range 16).foldl (fun g l => g.onLane l fun p s => laneSettle p s (some l)) (g.onPart Part.lateEnds)
  let g := (if g.phase = .ready then (g.flushAll.settle.flushAll).levelVectors else g.flushAll).egressDrain
  { g with faultN := g.phase != .off && g.faultNow }

/-- A command to the aggregator begins: what its last command presented is gone and a cycle of error captures begins (R46). -/
def Agg.begin_ (g : Agg) : Agg := g.onPart fun p => { p with out := [], accessed := false, captured := [] }

/-- A command that the aggregator takes from hardware-ready on (R320, R408). -/
def Agg.whenReady (g : Agg) (f : Agg → Agg) : Agg := if g.phase = .ready then (f g.begin_).finish else g

/-- A command that Levee takes in reset too (R320, R446). -/
def Agg.whenPowered (g : Agg) (f : Agg → Agg) : Agg :=
  if g.phase = .ready ∨ g.phase = .held then (f g.begin_).finish else g

/-- A command that the chip takes from supplies valid on, whatever else runs (R443, R453). -/
def Agg.whenSupplied (g : Agg) (f : Agg → Agg) : Agg := (if g.phase = .off then g.begin_ else f g.begin_).finish

/-- A command about the aggregator's supplies, straps and resets. -/
def Agg.always (g : Agg) (f : Agg → Agg) : Agg := (f g.begin_).finish

end Sys2Proof.Machine
end

