-- ==== Sys2Proof/Machine/DieRows.lean ====
section
/-! DEFINITION. The entries through which a command reaches a die, and the die's commands that only combine operations of
its blocks: stage misses and hangs (R89, R92), the end of a compression job (R266), training (R276), register and bulk cells
(R274, R275), the stored records sent (R109, R117), and the counter's own advance (R55). -/

namespace Sys2Proof.Machine

/-- A command to a die begins: what its last command presented is gone and a cycle of error captures begins (R46). -/
def Die.begin_ (d : Die) : Die := d.onPart fun p => { p with out := [], accessed := false, captured := [] }

/-- A command that a die takes while it has power; an access before ready is answered without effect (R392). -/
def Die.whenPowered (d : Die) (f : Die → Die) : Die := if d.powered then (f d.begin_).finish else d

/-- A command that a die takes from ready on (R391, R414). -/
def Die.whenReady (d : Die) (f : Die → Die) : Die := if d.powered && d.ready then (f d.begin_).finish else d

/-- A register word written through the register port (R38, R392). -/
def Die.writePort (d : Die) (addr : Nat) (w : W32) (ecc : Ecc) : Die := d.access fun d => d.regWrite addr w ecc

/-- Command bits of a register written, its other fields carrying the values they hold (R38). -/
def Die.strobe (d : Die) (addr bits : Nat) : Die :=
  d.access fun d => d.regWrite addr (d.part.kept false addr ||| BitVec.ofNat 32 bits) .ok

/-- An access to an unassigned page or offset (R34): a write of `w`, or a read. -/
def Die.unassigned (d : Die) (addr : Nat) (w : Option W32) : Die :=
  match w with
  | some x => d.writePort addr x .ok
  | none => d.readPort .near addr .ok

/-- EARLY_ACCESS (R392): an access while the die has power and is not ready; from ready on no access is early. -/
def Die.earlyAccess (d : Die) : Die := if d.ready then d else d.early

/-- DEADLINE_MISS (R89): the first item of the stage that has not been marked reaches its deadline instant. -/
def Part.deadlineMiss (p : Part) (page stage unit : Nat) : Part :=
  match p.stages.find? (fun i => i.named page stage unit && !i.missed) with
  | none => p
  | some i => (p.reach (i.start + i.deadline)).stageMiss page stage unit

/-- DEADLINE_MISS on a die. -/
def Die.deadlineMiss (d : Die) (page stage unit : Nat) : Die := d.onPart fun p => p.deadlineMiss page stage unit

/-- STAGE_HANG on a die (R92): at HANG_MULT times its deadline the page faults; the TRIB stage never hangs. -/
def Die.stageHang (d : Die) (page stage unit : Nat) : Die :=
  if page = 0x31 then d
  else match d.part.stageFind page stage unit with
  | none => d
  | some i =>
    let was := d.part.pstate page
    let d := d.onPart fun p => (p.reach (i.start + i.deadline * p.fld 0x204C 0 8)).stageHang page stage unit
    if was ≠ .faulted ∧ d.part.pstate page = .faulted then d.pageFaults page (was == .active) else d

/-- COMPRESSION_DONE (R266): a record that fits nowhere afterwards goes back to its producer's rule (R267). Jobs run while
SLUICE is ACTIVE and end while it drains; a fault holds them (R41). -/
def Die.compressionDone (d : Die) : Die :=
  if d.part.pstate 0x30 = .faulted then d
  else
    let (p, s, left) := jobDone d.part d.port
    let d := { d with part := p, port := s }
    match left with
    | none => d
    | some rc => match rc.kind with
      | .window => d.retain rc
      | .snapshot =>
        let id := match d.bore.cut with | some c => c.id | none => d.part.num 0x308C
        let rest := match d.bore.cut with | some c => c.parts | none => []
        (d.onBore fun b => { b with cut := some ⟨id, rc :: rest⟩ }).onPart fun p => p.setBit 0x3044 5 true
      | .trace => (d.onMeander fun m => { m with upload := rc :: m.upload }).onPart fun p =>
          (p.setBit 0x140048 3 true).setBit 0x14007C 2 false
      | _ => d.recordLost rc

/-- STEP_STORE_SEND (R109). -/
def Die.stepStoreSend (d : Die) : Die := Die.sendStored (d.spring.stepStore.length + 1) d

/-- RETENTION_SEND (R117): `es` are the check results of the records' reads, in the order sent. -/
def Die.retentionSend (d : Die) (es : List Ecc) : Die := Die.sendRetained (d.spring.retention.length + 1) es d

/-- TIME_SYNC received (R273). -/
def Die.timeSyncCell (d : Die) (h : CellHdr) (exch t1 cDown : Nat) : Die :=
  Die.received (d.cellIn h 2 (some 24)) fun d => d.timeSync exch t1 cDown

/-- TIME_RESP received (R273); `stale` and `ss` as `Die.timeResp` takes them. -/
def Die.timeRespCell (d : Die) (h : CellHdr) (exch t4 : Nat) (stale : Bool) (ss : List MonSample) : Die :=
  Die.received (d.cellIn h 4 (some 24)) fun d => d.timeResp exch t4 stale ss

/-- DISPUTE received (R211): its UNIT is an engine 0–639, or 0x3FF for the die. -/
def Die.disputeCell (d : Die) (h : CellHdr) (tag unit : Nat) : Die :=
  Die.receivedOk (d.cellIn h 6 (some 8)) h 6 (unit < 640 || unit == 0x3FF) fun d => d.dispute tag unit 0

/-- SELFTEST_REQ received (R187): its ENGINE is 0–639. -/
def Die.selftestReqCell (d : Die) (h : CellHdr) (engine tag : Nat) : Die :=
  Die.receivedOk (d.cellIn h 7 (some 8)) h 7 (engine < 640) fun d => d.selftestCell engine tag

/-- REG_REQ received (R274). -/
def Die.regReqCell (d : Die) (h : CellHdr) (id op nwords addr : Nat) (data : List W32) (es : List Ecc) : Die :=
  Die.received (d.cellIn h 8 none) fun d =>
    d.takeReq h { typ := 8, len := h.len, body := .regReq id op nwords addr data } es

/-- BULK received (R275). -/
def Die.bulkCell (d : Die) (h : CellHdr) (id target : Nat) (last : Bool) (offset : Nat) (data : List Byte) : Die :=
  Die.received (d.cellIn h 10 none) fun d =>
    d.takeReq h { typ := 10, len := h.len, body := .bulk id target last offset data } []

/-- A TRAIN cell received at a die (R276). -/
def Die.train (d : Die) (h : CellHdr) (role version port id : Nat) : Die :=
  d.laneAct fun p s => trainIn p s none h (role == 1) version port id

/-- A TRAIN cell sent by a die (R276, R395): ROLE 0, its strap, and the GDID in force. -/
def Die.trainSend (d : Die) : Die := d.onLane fun p s => Machine.trainSend p s none 0 p.slot p.gdid

/-- LOSS on a die's lane (R276): the codewords counted, and the link going down with its cause. -/
def Die.linkLoss (d : Die) (cause : Nat) (fec : Nat × Nat) (at_ : Nat) : Die :=
  (d.onPart fun p => fecCount (p.reach at_) none fec).laneAct fun p s => linkRestart p s none cause

/-- A received cell whose CRC fails at a die (R271). -/
def Die.crcBad (d : Die) (fec : Nat × Nat) : Die := d.laneAct fun p s => crcErr (fecCount p none fec) s none

/-- A page word written: PAGE_CTL, ERR_STAT or ERR_INJECT (R37, R38). -/
def hdrAddr (page off : Nat) : Nat := page * 0x1000 + off

/-- TAP_INC (R101): the increments of a tap's 16 counters on one partner clock edge, counter 0 first. -/
def Die.tapInc (d : Die) (tap : Nat) (incs : List (Fin 16)) : Die :=
  (List.range 16).foldl (fun d k => d.tapAdd (16 * tap + k) (incs.getD k 0).val) d

/-- HP_SAMPLE (R105): the next instant start + j × HP_SAMPLE_NS of the open window comes, the inputs present their values, and
each is sampled. Where no such instant lies before the closing boundary, the inputs only present their values: the close
samples them. -/
def Die.hpStep (d : Die) (vals : List (Nat × W16 × Bool)) : Die :=
  let w := d.spring.window
  let n := max 1 (d.part.num 0x40048)
  let due := match d.spring.hpAt with | some t => max d.now (t + 1) | none => max d.now (w.start + 1)
  let at_ := w.start + (due - w.start + n - 1) / n * n
  if at_ < d.boundaryOf (w.index + 1) then
    (((d.onPart fun p => p.reach at_).hpPresent vals).hpSample).onSpring fun s => { s with hpAt := some at_ }
  else d.hpPresent vals

/-- Two edges (R55): the advance of 6.4 ns that stands for time passing with no command (log entry 37). The backup oscillator
advances the counter by the nominal increment (R65). -/
def Die.tick (d : Die) : Die :=
  if !d.powered then d
  else
    let p := d.part
    let edge : Int := (p.fld 0x1054 0 4 : Int) * 4294967296 + p.num 0x1058 + (if p.disc.refLoss then 0 else p.disc.trim)
    d.onPart fun p => { p with time := BitVec.ofInt 96 ((p.time.toNat : Int) + 2 * edge) }

end Sys2Proof.Machine
end

