-- ==== Sys2Proof/Machine/AggRows.lean ====
section
/-! DEFINITION. The aggregator's commands that only combine operations of its blocks: stage misses and hangs (R89, R92), the
recorder's freeze (R316), expulsion answers (R307), frames of the tree (R312, R296), training (R276), link loss, and the
counter's own advance (R55, R443). -/

namespace Sys2Proof.Machine

/-- DEADLINE_MISS on the aggregator (R89). -/
def Agg.deadlineMiss (g : Agg) (page stage unit : Nat) : Agg := g.onPart fun p => p.deadlineMiss page stage unit

/-- STAGE_HANG on the aggregator (R92): it has no HANG_MULT register and takes the reset value of the die's (log entry 40). -/
def Agg.stageHang (g : Agg) (page stage unit : Nat) : Agg :=
  match g.part.stageFind page stage unit with
  | none => g
  | some i =>
    let was := g.part.active page
    let g := g.reach (i.start + i.deadline * bitsOf (resetWord false 0x204C).toNat 0 8)
    let g := g.onPart fun p => p.stageHang page stage unit
    if was && !g.part.active page then g.pageLeaves page else g

/-- A BAR0 read whose value is answered. -/
def Agg.readBar (g : Agg) (src : Src) (addr : Nat) (ecc : Ecc) : Agg :=
  let (w, g) := g.barRead src addr ecc
  g.show (.regAck w)

/-- An access to an unassigned page or offset through BAR0 (R34). -/
def Agg.unassigned (g : Agg) (addr : Nat) (w : Option W32) : Agg :=
  match w with
  | some x => g.barWrite addr x .ok
  | none => g.readBar .near addr .ok

/-- FREEZE_POST_EXPIRED (R316): FREEZE_POST_MS after the cause, the window rings stop. -/
def Agg.freezePost (g : Agg) : Agg :=
  match g.conf.freeze with
  | none => g
  | some z => if z.frozen then g else (g.reach (z.since + g.part.num 0x10A4 * 1000000)).freezeNow

/-- FREEZE_MAX_EXPIRED (R316): FREEZE_MAX_S after it began a freeze ends, recorded with the automatic flag. -/
def Agg.freezeMax (g : Agg) : Agg :=
  match g.conf.freeze with
  | none => g
  | some z =>
    let g := g.reach (z.since + g.part.num 0x10A8 * 1000000000)
    (g.onPart fun p => p.raise 1 29 { unit := z.port, detail := leBytes 1 z.cause ++ leBytes 1 z.port ++ [1] }).freezeEnd

/-- What a frame of the tree brings, where its port, its redundancy account and its payload let it in (R311, R378, R379). -/
def Agg.framed (g : Agg) (h : EthHdr) (body : TreeBody) (f : Agg → Agg) : Agg :=
  let (ok, g) := g.treeIn h body
  if ok then f g else g

/-- EXPEL_REQ (R307): the budget holder answers GRANT or DOWNGRADE. -/
def Agg.expelReq (g : Agg) (h : EthHdr) (gdid part entity score : Nat) : Agg :=
  g.framed h (.expelReq gdid part entity score) fun g =>
    if g.holdsBudget then
      let (r, c, g) := g.budgetJudge gdid part
      g.ethSend h.node (.expelResp gdid r c)
    else g

/-- EXPEL_RESP (R307). -/
def Agg.expelResp (g : Agg) (h : EthHdr) (gdid result cause : Nat) : Agg :=
  g.framed h (.expelResp gdid result cause) fun g => g.expelAnswer gdid result

/-- SKETCH_RECEIVE (R311): a segment of a child's sketch. -/
def Agg.sketchFrame (g : Agg) (h : EthHdr) (off total : Nat) (bs : List Byte) : Agg :=
  g.framed h (.sketch off total bs) fun g => g.sketchPart h.node off total bs

/-- BCAST_RECEIVE (R312). -/
def Agg.bcastFrame (g : Agg) (h : EthHdr) (m : Bcast) (child : Option Nat) : Agg :=
  g.framed h (.bcast m child) fun g => g.bcastReceive h m child

/-- CONFIRM (R313). -/
def Agg.confirmFrame (g : Agg) (h : EthHdr) (m : Bcast) (child : Option Nat) : Agg :=
  g.framed h (.bcast { m with op := 3 } child) fun g => g.confirmReceive h m.id child

/-- BCAST_ABORT (R313). -/
def Agg.abortFrame (g : Agg) (h : EthHdr) (m : Bcast) (child : Option Nat) : Agg :=
  g.framed h (.bcast { m with op := 4 } child) fun g => g.abortReceive h m.id m.body child

/-- HOP_ACK (R312). -/
def Agg.hopAckFrame (g : Agg) (h : EthHdr) (id op : Nat) : Agg := g.framed h (.hopAck id op) fun g => g.hopAck id op h.node

/-- READY (R312). -/
def Agg.readyFrame (g : Agg) (h : EthHdr) (id op pooled refused unreached node : Nat) : Agg :=
  g.framed h (.ready id op pooled refused unreached node) fun g => g.readyReceive id op pooled refused unreached node

/-- A TRAIN cell sent on a lane (R276, R395): ROLE 1, the lane, and the aggregator's identity. -/
def Agg.trainSend (g : Agg) (l : Nat) : Agg :=
  g.laneAct l fun p s => Machine.trainSend p s (some l) 1 l g.trainId

/-- LOSS on a lane (R276). -/
def Agg.linkLoss (g : Agg) (l cause : Nat) (fec : Nat × Nat) (at_ : Nat) : Agg :=
  (g.onPart fun p => fecCount (p.reach at_) (some l) fec).laneAct l fun p s => linkRestart p s (some l) cause

/-- LOCK on a lane (R276). -/
def Agg.linkLock (g : Agg) (l : Nat) : Agg := g.laneAct l fun p s => Machine.linkLock p s (some l)

/-- TIMEOUT on a lane (R276). -/
def Agg.linkTimeout (g : Agg) (l : Nat) : Agg := g.laneAct l fun p s => Machine.linkTimeout p s (some l)

/-- A received cell whose CRC fails on a lane (R271). -/
def Agg.crcBad (g : Agg) (l : Nat) (fec : Nat × Nat) : Agg :=
  g.laneAct l fun p s => crcErr (fecCount p (some l) fec) s (some l)

/-- The next gate cycle of a lane (R282). -/
def Agg.gateCycle (g : Agg) (l : Nat) : Agg := g.onLane l fun p s => Machine.gateCycle p s (some l)

/-- The next gate-list entry of a lane (R282). -/
def Agg.gclAdvance (g : Agg) (l : Nat) : Agg := g.onPart fun p => Machine.gclAdvance p (some l)

/-- An Ethernet link loss (R378): the FEC codewords counted, and the link down with its cause. -/
def Agg.ethLoss (g : Agg) (i cause : Nat) (fec : Nat × Nat) : Agg := (g.ethFec i fec).ethDown i cause

/-- One REF156 edge (R55, R443): the advance of 6.4 ns that stands for time passing with no command (log entry 37). Without the
reference the counter advances by the nominal increment (R65). -/
def Agg.tick (g : Agg) : Agg :=
  if g.phase = .off then g
  else
    let edge : Int := 6 * 4294967296 + 1717986918 + (if g.part.disc.refLoss then 0 else g.part.disc.trim)
    g.onPart fun p => { p with time := BitVec.ofInt 96 ((p.time.toNat : Int) + edge) }

end Sys2Proof.Machine
end

