-- ==== Sys2Proof/Machine/State.lean ====
section
/-! DEFINITION. The state of the block: the queue of commands that wait, the sixteen die units of a tray and its aggregator
(R30, R391, R439), and the machine right after reset. -/

namespace Sys2Proof.Machine

/-- What stops the machine with a fault: nothing. Every error the manual names is a register effect, a health record or a
page state, after which the block goes on; every access outside the register map reads 0 and is recorded (R34). -/
inductive Fault where
  deriving DecidableEq, Repr

/-- Why a command has no meaning. `notModelled`: an arm of `exec` whose command has none yet; raised by no arm. Safe. -/
inductive Refusal where
  | notModelled (mnemonic : String)
  deriving DecidableEq, Repr

/-- The block: the commands that wait, first in, first out (the model's own field), the die of each lane, and the
aggregator. -/
structure State where
  pending : List Instr := []
  dies : Vector Die 16
  agg : Agg
  deriving DecidableEq, Repr

/-- The machine right after reset: every VQ_VDD and every aggregator supply has just become valid (R54, R391, R440). The
straps of die `l` read `l`; the aggregator's straps read compute role, ID_MODE 0 and HOST_EN 1 (log entry 38), and nothing
is tied off (log entry 39). -/
def State.reset : State := { dies := Vector.ofFn fun l => Die.reset l {}, agg := Agg.powerOn false false true }

end Sys2Proof.Machine
end

