-- ==== Sys2Proof/Machine/StateOps.lean ====
section
/-! DEFINITION. The operations every command goes through: which part it reaches and when that part takes it. -/

namespace Sys2Proof.Machine

open Sys2Proof

/-- What a command answers. -/
abbrev Answer := Host.Outcome State Fault Refusal

/-- The die of a lane. -/
def State.die (s : State) (l : Lane) : Die := s.dies[l]

/-- The state with the die of one lane changed. -/
def State.onDie (s : State) (l : Lane) (f : Die → Die) : State := { s with dies := s.dies.set l (f (s.die l)) }

/-- The state with its aggregator changed. -/
def State.onAgg (s : State) (f : Agg → Agg) : State := { s with agg := f s.agg }

/-- A command that a die takes from ready on. -/
def State.dieReady (s : State) (l : Lane) (f : Die → Die) : Answer := .next (s.onDie l fun d => d.whenReady f)

/-- A command that a die takes while it has power. -/
def State.diePowered (s : State) (l : Lane) (f : Die → Die) : Answer := .next (s.onDie l fun d => d.whenPowered f)

/-- A command about the supply of a die. -/
def State.dieSupply (s : State) (l : Lane) (f : Die → Die) : Answer := .next (s.onDie l f)

/-- A command that the aggregator takes from hardware-ready on. -/
def State.aggReady (s : State) (f : Agg → Agg) : Answer := .next (s.onAgg fun g => g.whenReady f)

/-- A command that Levee takes in reset too. -/
def State.aggPowered (s : State) (f : Agg → Agg) : Answer := .next (s.onAgg fun g => g.whenPowered f)

/-- A command that the chip takes from supplies valid on. -/
def State.aggSupplied (s : State) (f : Agg → Agg) : Answer := .next (s.onAgg fun g => g.whenSupplied f)

/-- A command about the aggregator's supplies, straps and resets. -/
def State.aggAlways (s : State) (f : Agg → Agg) : Answer := .next (s.onAgg fun g => g.always f)

/-- Time passes with no command: every counter advances by 6.4 ns (log entry 37). -/
def State.tick (s : State) : State :=
  { s with dies := s.dies.map fun d => d.whenPowered Die.tick, agg := s.agg.always Agg.tick }

end Sys2Proof.Machine
end

