-- ==== Sys2Proof/Machine/BcastCmds.lean ====
section
/-! DEFINITION. The commands of broadcasts, the flight recorder and drift models (chapter 13): what each does to State. -/

namespace Sys2Proof.Machine

/-- BCAST_RECEIVE (R312): `child` is the child an adopted frame is meant for. -/
def execBcastReceive (h : EthHdr) (m : Bcast) (child : Option Nat) (s : State) : Answer :=
  s.aggReady fun g => g.bcastFrame h m child

/-- HOP_ACK (R312). -/
def execHopAck (h : EthHdr) (id : Nat) (op : Nat) (s : State) : Answer := s.aggReady fun g => g.hopAckFrame h id op

/-- HOP_ACK_TIMEOUT (R312). -/
def execHopAckTimeout (id : Nat) (node : Nat) (s : State) : Answer := s.aggReady fun g => g.hopTimeout id node

/-- ACK_GATHER_EXPIRED (R312). -/
def execAckGatherExpired (id : Nat) (s : State) : Answer := s.aggReady fun g => g.gatherExpired id

/-- READY (R312). -/
def execReady (h : EthHdr) (id : Nat) (op : Nat) (pooled : Nat) (refused : Nat) (unreached : Nat) (node : Nat) (s :
    State) : Answer :=
  s.aggReady fun g => g.readyFrame h id op pooled refused unreached node

/-- BCAST_DECIDE (R313). -/
def execBcastDecide (id : Nat) (s : State) : Answer := s.aggReady fun g => g.decide_ id

/-- CONFIRM (R313). -/
def execConfirm (h : EthHdr) (m : Bcast) (child : Option Nat) (s : State) : Answer :=
  s.aggReady fun g => g.confirmFrame h m child

/-- BCAST_ABORT (R313): `body` is the event that withdraws broadcast `m`. -/
def execBcastAbort (h : EthHdr) (m : Bcast) (body : BoreEvent) (child : Option Nat) (s : State) : Answer :=
  s.aggReady fun g => g.abortFrame h { m with body := body } child

/-- CONFIRM_ACK_CHECK (R313). -/
def execConfirmAckCheck (id : Nat) (s : State) : Answer := s.aggReady fun g => g.confirmCheck id

/-- TRAY_SELF_ABORT (R314). -/
def execTraySelfAbort (id : Nat) (s : State) : Answer := s.aggReady fun g => g.selfAbort id

/-- START_SPLIT (R314). -/
def execStartSplit (id : Nat) (s : State) : Answer := s.aggReady fun g => g.startSplit id

/-- FREEZE_NOW (R316). -/
def execFreezeNow (s : State) : Answer := s.aggReady fun g => g.strobe 0x1040 8

/-- UNFREEZE (R316). -/
def execUnfreeze (s : State) : Answer := s.aggReady fun g => g.strobe 0x1040 16

/-- FREEZE_POST_EXPIRED (R316). -/
def execFreezePostExpired (s : State) : Answer := s.aggReady fun g => g.freezePost

/-- FREEZE_MAX_EXPIRED (R316). -/
def execFreezeMaxExpired (s : State) : Answer := s.aggReady fun g => g.freezeMax

/-- MODEL_VALIDATE (R303). -/
def execModelValidate (cls : Fin 8) (s : State) : Answer :=
  s.aggReady fun g => g.barWrite 0x10F4 (BitVec.ofNat 32 (1 + 2 * cls.val)) .ok

/-- MODEL_SWAP_ARM (R303). -/
def execModelSwapArm (cls : Fin 8) (s : State) : Answer :=
  s.aggReady fun g => g.barWrite 0x10F4 (BitVec.ofNat 32 (0x10 + 2 * cls.val)) .ok

end Sys2Proof.Machine
end

