-- ==== Sys2Proof/Machine/BoreCmds.lean ====
section
/-! DEFINITION. The commands of Bore events and barriers (chapter 10): what each does to State. -/

namespace Sys2Proof.Machine

/-- BORE_FRAME_RECEIVE (R220, R238): a frame on the lane of a copy. -/
def execBoreFrameReceive (l : Lane) (pair : Fin 3) (copy seq : Nat) (ends : PairEnds) (e : BoreEvent) (s : State) : Answer :=
  s.diePowered l fun d => d.boreFrame pair ⟨ends.start, copy, seq, e, ends.crc⟩

/-- VOTE_WINDOW_EXPIRED (R220). -/
def execVoteWindowExpired (l : Lane) (s : State) : Answer := s.diePowered l fun d => d.voteExpired

/-- COPY_RESET (R221). -/
def execCopyReset (l : Lane) (s : State) : Answer := s.diePowered l fun d => d.strobe 0x3040 2

/-- LAUNCH (R238). -/
def execLaunch (x : UpsetDie) (s : State) : Answer := s.diePowered x.lane fun d => (d.upsetBy x).strobe 0x3040 1

/-- AGG_BORE_ECHO (R225): `copies` lists what came on copy A, B and C. -/
def execAggBoreEcho (src : BoreFrom) (copies : List (Option PairFrame)) (s : State) : Answer :=
  s.aggReady fun g => g.boreIn src copies

/-- RELAY_FRAME_RECEIVE (R227). -/
def execRelayFrameReceive (h : EthHdr) (group : Nat) (e : BoreEvent) (s : State) : Answer :=
  s.aggReady fun g => g.relayIn h group e

/-- EVENT_ACK_RECEIVE (R229): `copies` lists what came on copy A, B and C of the die’s up pairs. -/
def execEventAckReceive (l : Lane) (copies : List (Option PairFrame)) (s : State) : Answer :=
  s.aggReady fun g => g.boreIn (.die l) copies

/-- SNAPSHOT_PART_SEND (R236). -/
def execSnapshotPartSend (l : Lane) (s : State) : Answer := s.diePowered l fun d => d.partSend

/-- CORE_ARRIVE (R231). -/
def execCoreArrive (x : UpsetDie) (core : Fin 64) (ctx : Fin 256) (sense : Bool) (s : State) : Answer :=
  s.dieReady x.lane fun d => (d.upsetBy x).ctxArrive ctx (b2n sense) 1 ⟨0, core⟩

/-- REGISTER_ARRIVE (R231). -/
def execRegisterArrive (x : UpsetDie) (ctx : Fin 256) (sense : Bool) (count : W16) (s : State) : Answer :=
  s.diePowered x.lane fun d =>
    (d.upsetBy x).writePort (ctxAddr ctx + 0x10) (BitVec.ofNat 32 (count.toNat + 65536 * b2n sense)) .ok

/-- CONTEXT_RESET (R232). -/
def execContextReset (l : Lane) (ctx : Fin 256) (s : State) : Answer :=
  s.diePowered l fun d => d.strobe (ctxAddr ctx) 0x80

/-- CONTEXT_ENABLE (R232). -/
def execContextEnable (l : Lane) (ctx : Fin 256) (s : State) : Answer :=
  s.diePowered l fun d => d.strobe (ctxAddr ctx) 1

end Sys2Proof.Machine
end

