-- ==== Sys2Proof/Machine/ChipCmds.lean ====
section
/-! DEFINITION. The commands of the aggregator chip (chapter 19): what each does to State. -/

namespace Sys2Proof.Machine

/-- SUPPLIES_VALID (R440): the straps. -/
def execSuppliesValid (role : Bool) (idMode : Bool) (hostEn : Bool) (s : State) : Answer :=
  s.aggAlways fun g => g.suppliesValid role idMode hostEn

/-- HARDWARE_READY (R408). -/
def execHardwareReady (s : State) : Answer := s.aggAlways fun g => g.hardwareReady

/-- SUPPLY_RANGE (R439). -/
def execSupplyRange (supply : Fin 8) (v : Nat) (s : State) : Answer := s.aggAlways fun g => g.supplyOut supply v

/-- AGG_POWER_LOSS (R439). -/
def execAggPowerLoss (s : State) : Answer := s.aggAlways fun g => g.powerLoss

/-- RESET_N_ASSERT (R446). -/
def execResetNAssert (s : State) : Answer := s.aggAlways fun g => g.resetAssert

/-- RESET_N_RISE (R446): the straps. -/
def execResetNRise (role : Bool) (idMode : Bool) (hostEn : Bool) (s : State) : Answer :=
  s.aggAlways fun g => g.resetRise role idMode hostEn

/-- REF156_LOSS (R443). -/
def execRef156Loss (s : State) : Answer := s.aggSupplied fun g => g.refLost

/-- REF156_RETURN (R443). -/
def execRef156Return (s : State) : Answer := s.aggSupplied fun g => g.refBack

/-- THERM_WARN (R453). -/
def execThermWarn (t : W16) (s : State) : Answer := s.aggSupplied fun g => g.chipTemp t

/-- THERMAL_TRIP (R453). -/
def execThermalTrip (s : State) : Answer := s.aggSupplied fun g => g.thermalTrip

/-- DRAM_RETRAIN (R451). -/
def execDramRetrain (s : State) : Answer := s.aggReady fun g => g.strobe 0x20040 1

/-- DRAM_TRAINING_DONE (R450): the channel, the cause and the capacity found, where it failed. -/
def execDramTrainingDone (fail : Option (Nat × Nat × Nat)) (s : State) : Answer :=
  s.aggSupplied fun g => g.dramDone fail

/-- SUPPLY_WITHIN_RANGE (R439). -/
def execSupplyWithinRange (supply : Fin 8) (v : Nat) (s : State) : Answer := s.aggAlways fun g => g.supplyIn supply v

/-- TEMP_DERATE (R449). -/
def execTempDerate (chan : Nat) (derate : Fin 3) (mr4 : Nat) (s : State) : Answer :=
  s.aggReady fun g => g.tempDerate chan derate mr4

end Sys2Proof.Machine
end

