-- ==== Sys2Proof/Machine/GaugeCmds.lean ====
section
/-! DEFINITION. The commands of Gauge (chapter 08): what each does to State. -/

namespace Sys2Proof.Machine

/-- PROBE_DUE (R179). -/
def execProbeDue (l : Lane) (x : DueEngine) (s : State) : Answer :=
  s.dieReady l fun d => d.probeDue x.engine x.ecc

/-- PROBE_ISSUE (R177): the slot the engine offers, busy or idle, and its load. -/
def execProbeIssue (l : Lane) (e : Fin 640) (busy : Bool) (load : Nat) (s : State) : Answer :=
  s.dieReady l fun d => d.offerSlot e busy load

/-- STEAL_WAIT_EXPIRED (R177). -/
def execStealWaitExpired (l : Lane) (e : Fin 640) (s : State) : Answer := s.dieReady l fun d => d.stealWait e

/-- PROBE_RESULT (R173). -/
def execProbeResult (l : Lane) (tag : Nat) (status : Nat) (res : ResultTile) (s : State) : Answer :=
  s.dieReady l fun d => d.probeResult tag status res.words res.ecc

/-- SELFTEST_START (R188). -/
def execSelftestStart (l : Lane) (s : State) : Answer := s.dieReady l fun d => d.testStart

/-- PROBE_TIMEOUT (R190). -/
def execProbeTimeout (l : Lane) (tag : Nat) (s : State) : Answer := s.dieReady l fun d => d.probeTimeout tag

/-- ENGINE_ERR (R187). -/
def execEngineErr (l : Lane) (e : Fin 640) (code : Nat) (s : State) : Answer :=
  s.dieReady l fun d => d.engineErr e code

/-- REF_RETEST (R186). -/
def execRefRetest (l : Lane) (s : State) : Answer := s.diePowered l fun d => d.strobe 0x18040 16

/-- REF_SELFTEST_DONE (R186): where it failed, the tile and the MAC. -/
def execRefSelftestDone (l : Lane) (pass : Bool) (tile : Nat) (mac : Nat) (s : State) : Answer :=
  s.dieReady l fun d => d.refDone pass tile mac

/-- SELFTEST_REQ (R187). -/
def execSelftestReq (l : Lane) (w : W32) (s : State) : Answer := s.diePowered l fun d => d.writePort 0x1808C w .ok

/-- REPLAY_GO (R193). -/
def execReplayGo (l : Lane) (s : State) : Answer := s.diePowered l fun d => d.strobe 0x18040 32

/-- LEVEL_WR (R181). -/
def execLevelWr (l : Lane) (e : Fin 640) (w : W32) (s : State) : Answer :=
  s.diePowered l fun d => d.writePort (engAddr e) (w ||| 0x40) .ok

/-- TAP_CAPTURE (R175). -/
def execTapCapture (l : Lane) (e : Fin 640) (fmt : Nat) (a : List Nat) (b : List Nat) (c : List Nat) (s : State) :
    Answer :=
  s.dieReady l fun d => d.tapCapture e fmt a b c

end Sys2Proof.Machine
end

