-- ==== Sys2Proof/Machine/HostCmds.lean ====
section
/-! DEFINITION. The commands of the host (chapters 14 and 16): what each does to State. -/

namespace Sys2Proof.Machine

/-- HEARTBEAT (R336). -/
def execHeartbeat (w : W32) (s : State) : Answer := s.aggReady fun g => g.barWrite 0x204C w .ok

/-- ATTACH (R336). -/
def execAttach (w : W32) (s : State) : Answer := s.aggReady fun g => g.barWrite 0x2050 w .ok

/-- ATTACH_DONE (R336). -/
def execAttachDone (s : State) : Answer := s.aggReady fun g => g.strobe 0x2040 2

/-- DETACH (R336). -/
def execDetach (s : State) : Answer := s.aggReady fun g => g.strobe 0x2040 4

/-- HOST_TIMEOUT (R336). -/
def execHostTimeout (s : State) : Answer := s.aggReady fun g => g.hostTimeout

/-- BUS_LOSS (R362). -/
def execBusLoss (cause : Nat) (s : State) : Answer := s.aggReady fun g => g.busLoss cause

/-- PCIE_LINK_UP (R362). -/
def execPcieLinkUp (speed : Nat) (width : Nat) (flit : Bool) (ats : Bool) (s : State) : Answer :=
  s.aggReady fun g => g.pcieUp speed width flit ats

/-- BAR2_WRITE (R360). -/
def execBar2Write (addr : Nat) (bs : List Byte) (s : State) : Answer := s.aggReady fun g => g.bar2Write addr bs

end Sys2Proof.Machine
end

