-- ==== Sys2Proof/Machine/IdentCmds.lean ====
section
/-! DEFINITION. The commands of identity (chapter 17): what each does to State. -/

namespace Sys2Proof.Machine

/-- READ_ALL (R401). -/
def execReadAll (l : Lane) (s : State) : Answer := s.diePowered l fun d => d.strobe 0x41040 1

/-- READ_ONE (R401). -/
def execReadOne (l : Lane) (target : Fin 9) (s : State) : Answer :=
  s.diePowered l fun d => d.writePort 0x41040 (BitVec.ofNat 32 (2 + 256 * target.val)) .ok

/-- IDENT_TARGET_DONE (R402). -/
def execIdentTargetDone (l : Lane) (res : IdentRead) (s : State) : Answer := s.dieReady l fun d => d.identDone res

/-- TOPOLOGY_CHECK (R397). -/
def execTopologyCheck (l : Lane) (s : State) : Answer := s.aggReady fun g => g.topologyCheck l

/-- BOARD_RECORD_DONE (R404): whether its signature verified. -/
def execBoardRecordDone (res : IdentRead) (signed : Bool) (s : State) : Answer :=
  s.aggReady fun g => g.boardRecord res signed

/-- PART_RECORD_READ (R407). -/
def execPartRecordRead (item : Nat) (res : IdentRead) (s : State) : Answer := s.aggReady fun g => g.partRead item res

end Sys2Proof.Machine
end

