-- ==== Sys2Proof/Machine/LeveeCmds.lean ====
section
/-! DEFINITION. The commands of Levee and power steps (chapter 15): what each does to State. -/

namespace Sys2Proof.Machine

/-- ADC_CONVERSION (R343). -/
def execAdcConversion (chan : Fin 96) (res : AdcRead) (s : State) : Answer := s.aggPowered fun g => g.adc chan res

/-- VRM_OFF_EXPIRED (R345). -/
def execVrmOffExpired (l : Lane) (s : State) : Answer := s.aggPowered fun g => g.vrmOff l

/-- SHUT_CLR (R345). -/
def execShutClr (w : W32) (s : State) : Answer := s.aggReady fun g => g.barWrite 0x3058 w .ok

/-- FORCE_THROTTLE (R343). -/
def execForceThrottle (w : W32) (s : State) : Answer := s.aggReady fun g => g.barWrite 0x3068 w .ok

/-- LIMIT_TIGHTEN (R349). -/
def execLimitTighten (addr : BitVec 24) (w : W32) (s : State) : Answer :=
  s.aggReady fun g => g.barWrite addr.toNat w .ok

/-- POWER_GRANT (R352). -/
def execPowerGrant (l : Lane) (op : Fin 256) (s : State) : Answer := s.dieReady l fun d => d.pstepGrant op

/-- PSTEP_NO_GRANT (R352). -/
def execPstepNoGrant (l : Lane) (s : State) : Answer := s.dieReady l fun d => d.pstepNoGrant

/-- PLAN_ARM (R353). -/
def execPlanArm (s : State) : Answer := s.aggReady fun g => g.strobe 0x3040 1

/-- PLAN_STOP (R355). -/
def execPlanStop (s : State) : Answer := s.aggReady fun g => g.strobe 0x3040 2

/-- PLAN_LAUNCH (R354). -/
def execPlanLaunch (s : State) : Answer := s.aggReady fun g => g.planLaunch

end Sys2Proof.Machine
end

