-- ==== Sys2Proof/Machine/MeanderCmds.lean ====
section
/-! DEFINITION. The commands of Meander (chapter 11): what each does to State. -/

namespace Sys2Proof.Machine

/-- CORE_TAP_RECORD (R244). -/
def execCoreTapRecord (l : Lane) (core : Fin 64) (rcd : TapRec) (s : State) : Answer :=
  s.dieReady l fun d => d.tapRecord core rcd

/-- FRAME_FORM_TIMEOUT (R250). -/
def execFrameFormTimeout (l : Lane) (core : Fin 64) (s : State) : Answer := s.dieReady l fun d => d.frameTimeout core

/-- FRAME_SEND (R250). -/
def execFrameSend (l : Lane) (s : State) : Answer := s.dieReady l fun d => d.frameSend

/-- SYNC_NOW (R247). -/
def execSyncNow (l : Lane) (core : Fin 64) (s : State) : Answer :=
  s.diePowered l fun d => d.strobe (coreAddr core + 0x40) 0x40

/-- CORE_HALT (R258). -/
def execCoreHalt (l : Lane) (core : Fin 64) (s : State) : Answer :=
  s.diePowered l fun d => d.strobe (coreAddr core + 0x40) 0x10

/-- CORE_RESUME (R258). -/
def execCoreResume (l : Lane) (core : Fin 64) (s : State) : Answer :=
  s.diePowered l fun d => d.strobe (coreAddr core + 0x40) 0x20

/-- CORE_HALTED (R258). -/
def execCoreHalted (l : Lane) (core : Fin 64) (s : State) : Answer := s.dieReady l fun d => d.halted core

/-- CORE_DRAINED (R258). -/
def execCoreDrained (l : Lane) (core : Fin 64) (s : State) : Answer := s.dieReady l fun d => d.drained core

/-- CORE_RUNNING (R258). -/
def execCoreRunning (l : Lane) (core : Fin 64) (s : State) : Answer := s.dieReady l fun d => d.running core

/-- COMPARATOR_WRITE (R257). -/
def execComparatorWrite (l : Lane) (core : Fin 64) (off : BitVec 12) (w : W32) (s : State) : Answer :=
  s.diePowered l fun d => d.writePort (coreAddr core + off.toNat) w .ok

/-- COMP_ACK (R257). -/
def execCompAck (l : Lane) (core : Fin 64) (s : State) : Answer := s.dieReady l fun d => d.compAck core

/-- COMP_MATCH (R257): `action` has bit 0 for HALT, 1 for TRIGGER and 2 for CROSS. -/
def execCompMatch (l : Lane) (core : Fin 64) (index : Fin 12) (action : Fin 8) (s : State) : Answer :=
  s.dieReady l fun d => d.compMatch core index action

/-- CROSS_LAUNCH (R260). -/
def execCrossLaunch (x : UpsetDie) (s : State) : Answer := s.dieReady x.lane fun d => (d.upsetBy x).crossLaunch

/-- BUF_ARM (R253). -/
def execBufArm (l : Lane) (s : State) : Answer := s.diePowered l fun d => d.writePort 0x140044 1 .ok

/-- BUF_DISARM (R253). -/
def execBufDisarm (l : Lane) (s : State) : Answer := s.diePowered l fun d => d.writePort 0x140044 2 .ok

/-- TRIG_NOW (R254). -/
def execTrigNow (l : Lane) (s : State) : Answer := s.diePowered l fun d => d.writePort 0x140044 4 .ok

/-- BUF_UPLOAD (R255). -/
def execBufUpload (l : Lane) (s : State) : Answer := s.diePowered l fun d => d.writePort 0x140044 8 .ok

/-- TRACE_UPLOAD_SEND (R255). -/
def execTraceUploadSend (l : Lane) (s : State) : Answer := s.dieReady l fun d => d.uploadSend

end Sys2Proof.Machine
end

