-- ==== Sys2Proof/Machine/MergeCmds.lean ====
section
/-! DEFINITION. The commands of step merging, drift and expulsion (chapter 13): what each does to State. -/

namespace Sys2Proof.Machine

/-- STEP_RECORD_RECEIVE (R292). -/
def execStepRecordReceive (l : Lane) (bs : List Byte) (s : State) : Answer := s.aggReady fun g => g.stepReceive l bs

/-- CLOSE_EXPIRED (R292). -/
def execCloseExpired (job : Nat) (step : Nat) (s : State) : Answer := s.aggReady fun g => g.closeExpired job step

/-- SKETCH_SEND (R298). -/
def execSketchSend (r : Readout) (s : State) : Answer := s.aggReady fun g => g.sketchSend r.hostNs r.bad

/-- SKETCH_RECEIVE (R296, R311). -/
def execSketchReceive (h : EthHdr) (seg : SketchSeg) (s : State) : Answer :=
  s.aggReady fun g => g.sketchFrame h seg.offset seg.total seg.bytes

/-- DRIFT_PERIOD (R302). -/
def execDriftPeriod (s : State) : Answer := s.aggReady fun g => g.driftPeriod

/-- DRIFT_SCORING_DONE (R303). -/
def execDriftScoringDone (s : State) : Answer := s.aggReady fun g => g.driftDone

/-- EXPEL_RETRY (R304). -/
def execExpelRetry (l : Lane) (s : State) : Answer := s.aggReady fun g => g.expelRetry l

/-- EXPEL_REQ (R307). -/
def execExpelReq (h : EthHdr) (gdid : Nat) (partition : Nat) (entity : Nat) (score : Nat) (s : State) : Answer :=
  s.aggReady fun g => g.expelReq h gdid partition entity score

/-- EXPEL_RESP (R307). -/
def execExpelResp (h : EthHdr) (gdid : Nat) (result : Nat) (cause : Nat) (s : State) : Answer :=
  s.aggReady fun g => g.expelResp h gdid result cause

/-- BUDGET_MINUTE (R307). -/
def execBudgetMinute (s : State) : Answer := s.aggReady fun g => g.budgetMinute

/-- ALIVE_EXPIRED (R305). -/
def execAliveExpired (l : Lane) (path : PathLoss) (s : State) : Answer := s.aggReady fun g => g.aliveExpired l path

/-- DISAGREE_EXPIRED (R305). -/
def execDisagreeExpired (l : Lane) (s : State) : Answer := s.aggReady fun g => g.disagree l

/-- DIE_DISPUTE_CLR (R306). -/
def execDieDisputeClr (l : Lane) (tag : W16) (s : State) : Answer :=
  s.aggReady fun g => g.barWrite (dieState l) (BitVec.ofNat 32 (0x10 + 65536 * tag.toNat)) .ok

/-- REC_CLR (R308). -/
def execRecClr (l : Lane) (s : State) : Answer := s.aggReady fun g => g.barWrite (dieState l) 0x80 .ok

end Sys2Proof.Machine
end

