-- ==== Sys2Proof/Machine/MillCmds.lean ====
section
/-! DEFINITION. The commands of firmware cores and messages (chapter 14): what each does to State. -/

namespace Sys2Proof.Machine

/-- WATCHDOG_EXPIRY (R323): `lost` names the tasks of which no checkpoint passed its CRC. -/
def execWatchdogExpiry (c : Fin 8) (lost : List Nat) (s : State) : Answer := s.aggReady fun g => g.watchdog c lost

/-- CORE_SELF_CHECK_DONE (R323). -/
def execCoreSelfCheckDone (c : Fin 8) (s : State) : Answer := s.aggReady fun g => g.selfCheck c

/-- CHECKPOINT (R322). -/
def execCheckpoint (task : Fin 8) (s : State) : Answer := s.aggReady fun g => g.checkpoint task

/-- CHECKPOINT_LATE (R322). -/
def execCheckpointLate (task : Fin 8) (s : State) : Answer := s.aggReady fun g => g.checkpointLate task

/-- REQ_TAIL (R328). -/
def execReqTail (pair : Fin 4) (w : W32) (s : State) : Answer :=
  s.aggReady fun g => g.barWrite (pairReg pair + 4) w .ok

/-- PING (R331). -/
def execPing (src : MsgFrom) (s : State) : Answer := s.aggReady fun g => g.ping src

/-- GET_INFO (R331). -/
def execGetInfo (src : MsgFrom) (s : State) : Answer := s.aggReady fun g => g.getInfo src

/-- GET_LOG (R331). -/
def execGetLog (src : MsgFrom) (s : State) : Answer := s.aggReady fun g => g.getLog src

/-- FW_VERIFY (R334). -/
def execFwVerify (src : MsgFrom) (s : State) : Answer := s.aggReady fun g => g.fwVerify src

/-- FW_ACTIVATE (R335). -/
def execFwActivate (src : MsgFrom) (s : State) : Answer := s.aggReady fun g => g.fwActivate src

/-- FW_COMMIT (R334). -/
def execFwCommit (src : MsgFrom) (s : State) : Answer := s.aggReady fun g => g.fwCommit src

/-- FW_REVERT (R334). -/
def execFwRevert (src : MsgFrom) (s : State) : Answer := s.aggReady fun g => g.fwRevert src

/-- SB_READ (R331). -/
def execSbRead (src : MsgFrom) (s : State) : Answer := s.aggReady fun g => g.sbStart src 0x20

/-- SB_WRITE (R331). -/
def execSbWrite (src : MsgFrom) (s : State) : Answer := s.aggReady fun g => g.sbStart src 0x21

/-- SB_SCAN (R331). -/
def execSbScan (src : MsgFrom) (s : State) : Answer := s.aggReady fun g => g.sbStart src 0x22

/-- SB_TRANSACTION_DONE (R331): `sensor` is the sensor a periodic read sampled, with its value. -/
def execSbTransactionDone (bus : Fin 4) (res : SbResult) (sensor : Option (Nat × Int)) (s : State) : Answer :=
  s.aggReady fun g => g.sbDone bus res sensor

/-- SB_TIMEOUT (R331). -/
def execSbTimeout (bus : Fin 4) (s : State) : Answer := s.aggReady fun g => g.sbTimeout bus

/-- SB_ALERT (R407). -/
def execSbAlert (bus : Fin 4) (addr : Nat) (s : State) : Answer := s.aggReady fun g => g.sbAlert bus addr

/-- IMAGE_VERIFY_DONE (R334): the outcome of the checks against the key: 0, or the failing cause. -/
def execImageVerifyDone (crypt : Nat) (s : State) : Answer := s.aggReady fun g => g.verifyDone crypt

/-- NEW_READY (R334). -/
def execNewReady (s : State) : Answer := s.aggReady fun g => g.newReady

/-- NEW_REFUSE (R334). -/
def execNewRefuse (s : State) : Answer := s.aggReady fun g => g.newRefuse

/-- HANDOFF_TIMEOUT (R334). -/
def execHandoffTimeout (s : State) : Answer := s.aggReady fun g => g.handoffTimeout

/-- PROBATION_END (R334). -/
def execProbationEnd (s : State) : Answer := s.aggReady fun g => g.probationEnd

/-- STAGING_WRITE (R334). -/
def execStagingWrite (off : Nat) (bs : List Byte) (s : State) : Answer :=
  s.aggReady fun g => g.bar2Write (stagingBase + off) bs

/-- ROM_LOAD (R333). -/
def execRomLoad (s : State) : Answer := s.aggReady fun g => g.strobe 0x2040 8

/-- BOOT_LOAD_DONE (R333). -/
def execBootLoadDone (primary : ImageSeen) (backup : ImageSeen) (s : State) : Answer :=
  s.aggReady fun g => g.bootLoad primary backup

end Sys2Proof.Machine
end

