-- ==== Sys2Proof/Machine/ModelCmds.lean ====
section
/-! DEFINITION. The commands of Riffle and Eddy (chapters 06 and 07): what each does to State. -/

namespace Sys2Proof.Machine

/-- RIFFLE_VALIDATE (R132). -/
def execRiffleValidate (l : Lane) (s : State) : Answer := s.diePowered l fun d => d.strobe 0x9040 2

/-- RIFFLE_VALIDATION_DONE (R132): `ecc` is the check result of bank word `word`. -/
def execRiffleValidationDone (l : Lane) (word : Nat) (ecc : Ecc) (s : State) : Answer :=
  s.dieReady l fun d => d.rifValidated word ecc

/-- RIFFLE_SWAP_ARM (R134). -/
def execRiffleSwapArm (l : Lane) (s : State) : Answer := s.diePowered l fun d => d.strobe 0x9040 1

/-- FEATURES_READY (R126): `ecc` is the check result of bank word `word`. -/
def execFeaturesReady (l : Lane) (word : Nat) (ecc : Ecc) (s : State) : Answer :=
  s.dieReady l fun d => d.featuresReady word ecc

/-- EDDY_VALIDATE (R159). -/
def execEddyValidate (l : Lane) (slot : Fin 4) (s : State) : Answer :=
  s.diePowered l fun d => d.strobe 0x10040 (2 + 4 * slot)

/-- EDDY_VALIDATION_DONE (R159): `ecc` is the check result of memory word `word`. -/
def execEddyValidationDone (l : Lane) (word : Nat) (ecc : Ecc) (s : State) : Answer :=
  s.dieReady l fun d => d.edValidated word ecc

/-- EDDY_SWAP_ARM (R160). -/
def execEddySwapArm (l : Lane) (w : W32) (s : State) : Answer :=
  s.diePowered l fun d => d.writePort 0x10040 (w ||| 1) .ok

/-- SCORES_DELIVERED (R154): `times` is when each slot completed; `reads` the check results of their model reads. -/
def execScoresDelivered (l : Lane) (times : List Nat) (reads : List (Nat × Nat × Ecc)) (s : State) : Answer :=
  s.dieReady l fun d => d.scoresDelivered times reads

end Sys2Proof.Machine
end

