-- ==== Sys2Proof/Machine/NetCmds.lean ====
section
/-! DEFINITION. The commands of management Ethernet and the aggregator clock (chapter 16): what each does to State. -/

namespace Sys2Proof.Machine

/-- FORWARDED_RECORD (R384). -/
def execForwardedRecord (h : EthHdr) (gdid : Nat) (kind : Nat) (bs : List Byte) (s : State) : Answer :=
  s.aggReady fun g => g.forwardedIn h gdid kind bs

/-- ETH_LINK_DOWN (R378). -/
def execEthLinkDown (port : Fin 2) (cause : Nat) (corrected : Nat) (bad : Nat) (s : State) : Answer :=
  s.aggReady fun g => g.ethLoss port cause (corrected, bad)

/-- ETH_RETRAIN (R389). -/
def execEthRetrain (port : Fin 2) (s : State) : Answer := s.aggReady fun g => g.strobe (ethPage port + 0x40) 8

/-- PRP_SUPERVISION (R379). -/
def execPrpSupervision (s : State) : Answer := s.aggReady fun g => g.prpSupervise

/-- PRP_LAN_DOWN (R379). -/
def execPrpLanDown (port : Fin 2) (s : State) : Answer := s.aggReady fun g => g.prpLanDown port

/-- PTP_MESSAGE (R380). -/
def execPtpMessage (port : Fin 2) (m : PtpMsg) (s : State) : Answer := s.aggReady fun g => g.ptpMessage port m

/-- PTP_SYNC_MISSED (R381). -/
def execPtpSyncMissed (s : State) : Answer := s.aggReady fun g => g.ptpMissed

/-- PTP_HOLD_TIMEOUT (R381). -/
def execPtpHoldTimeout (s : State) : Answer := s.aggReady fun g => g.ptpHold

/-- PTP_ARM_RESTEP (R381). -/
def execPtpArmRestep (s : State) : Answer := s.aggReady fun g => g.strobe 0x4100 2

/-- PTP_DISARM (R381). -/
def execPtpDisarm (s : State) : Answer := s.aggReady fun g => g.strobe 0x4100 4

/-- ETH_LINK_UP (R378). -/
def execEthLinkUp (port : Fin 2) (s : State) : Answer := s.aggReady fun g => g.ethLinkUp port

end Sys2Proof.Machine
end

