-- ==== Sys2Proof/Machine/OxbowCmds.lean ====
section
/-! DEFINITION. The commands of Oxbow (chapter 09): what each does to State. -/

namespace Sys2Proof.Machine

/-- GATE_REQUEST (R200). -/
def execGateRequest (l : Lane) (step : W32) (s : State) : Answer := s.dieReady l fun d => d.gateRequest step.toNat

/-- DECIDE (R201). -/
def execDecideAt (l : Lane) (s : State) : Answer := s.dieReady l fun d => d.oxDecideHead

/-- GATE_RESPONSE_ACK (R205). -/
def execGateResponseAck (l : Lane) (s : State) : Answer := s.dieReady l fun d => d.oxAck

/-- RESPONSE_REPRESENT (R198). -/
def execResponseRepresent (l : Lane) (s : State) : Answer := s.dieReady l fun d => d.oxRepresent

/-- VERDICT_RELEASE (R207): VERDICT_STEP names the step. -/
def execVerdictRelease (l : Lane) (tag : W16) (s : State) : Answer :=
  s.diePowered l fun d => d.writePort 0x806C (BitVec.ofNat 32 (tag.toNat + 65536)) .ok

/-- VERDICT_DISCARD (R208): VERDICT_STEP names the step. -/
def execVerdictDiscard (l : Lane) (tag : W16) (s : State) : Answer :=
  s.diePowered l fun d => d.writePort 0x806C (BitVec.ofNat 32 (tag.toNat + 131072)) .ok

/-- DISPUTE_SET (R211): DISPUTE_ARG names the tag and the unit. -/
def execDisputeSet (l : Lane) (s : State) : Answer := s.diePowered l fun d => d.strobe 0x8040 8

/-- DISPUTE_CLR (R213). -/
def execDisputeClr (l : Lane) (w : W32) (s : State) : Answer :=
  s.diePowered l fun d => d.writePort 0x8040 (w ||| 0x10) .ok

/-- DISPUTE_CELL (R211). -/
def execDisputeCell (l : Lane) (h : CellHdr) (tag : Nat) (unit : Nat) (s : State) : Answer :=
  s.dieReady l fun d => d.disputeCell h tag unit

end Sys2Proof.Machine
end

