-- ==== Sys2Proof/Machine/PageCmds.lean ====
section
/-! DEFINITION. The commands of the register pages (chapters 01 and 02): what each does to State. -/

namespace Sys2Proof.Machine

/-- PAGE_ENABLE (R41). -/
def execPageEnable (part : PartId) (page : Fin 4096) (s : State) : Answer :=
  match part with
  | .die l => s.diePowered l fun d => d.writePort (hdrAddr page 4) 1 .ok
  | .agg => s.aggReady fun g => g.barWrite (hdrAddr page 4) 1 .ok

/-- PAGE_DRAIN (R41). -/
def execPageDrain (part : PartId) (page : Fin 4096) (s : State) : Answer :=
  match part with
  | .die l => s.diePowered l fun d => d.writePort (hdrAddr page 4) 2 .ok
  | .agg => s.aggReady fun g => g.barWrite (hdrAddr page 4) 2 .ok

/-- SOFT_CLEAR (R39). -/
def execSoftClear (part : PartId) (page : Fin 4096) (s : State) : Answer :=
  match part with
  | .die l => s.diePowered l fun d => d.writePort (hdrAddr page 4) 4 .ok
  | .agg => s.aggReady fun g => g.barWrite (hdrAddr page 4) 4 .ok

/-- PAGE_LOCK (R38). -/
def execPageLock (part : PartId) (page : Fin 4096) (s : State) : Answer :=
  match part with
  | .die l => s.diePowered l fun d => d.writePort (hdrAddr page 4) 8 .ok
  | .agg => s.aggReady fun g => g.barWrite (hdrAddr page 4) 8 .ok

/-- ENABLE_DONE (R41). -/
def execEnableDone (part : PartId) (page : Fin 4096) (s : State) : Answer :=
  match part with
  | .die l => s.dieReady l fun d => d.pageEnabled page
  | .agg => s.aggReady fun g => g.pageEnabled page

/-- DRAIN_DONE (R41). -/
def execDrainDone (part : PartId) (page : Fin 4096) (s : State) : Answer :=
  match part with
  | .die l => s.dieReady l fun d => d.pageDrained page
  | .agg => s.aggReady fun g => g.pageDrained page

/-- DRAIN_TIMEOUT (R42). -/
def execDrainTimeout (part : PartId) (page : Fin 4096) (s : State) : Answer :=
  match part with
  | .die l => s.dieReady l fun d => d.pageTimeout page
  | .agg => s.aggReady fun g => g.pageTimeout page

/-- ERR_STAT_CLEAR (R46). -/
def execErrStatClear (part : PartId) (page : Fin 4096) (w : W32) (s : State) : Answer :=
  match part with
  | .die l => s.diePowered l fun d => d.writePort (hdrAddr page 0xC) w .ok
  | .agg => s.aggReady fun g => g.barWrite (hdrAddr page 0xC) w .ok

/-- ERR_INJECT_ARM (R47). -/
def execErrInjectArm (part : PartId) (page : Fin 4096) (w : W32) (s : State) : Answer :=
  match part with
  | .die l => s.diePowered l fun d => d.writePort (hdrAddr page 0x14) w .ok
  | .agg => s.aggReady fun g => g.barWrite (hdrAddr page 0x14) w .ok

/-- REGISTER_WRITE (R38). -/
def execRegisterWrite (part : PartId) (addr : BitVec 24) (w : W32) (s : State) : Answer :=
  match part with
  | .die l => s.diePowered l fun d => d.writePort addr.toNat w .ok
  | .agg => s.aggReady fun g => g.barWrite addr.toNat w .ok

/-- UNASSIGNED_ACCESS (R34): a write of `w`, or a read. -/
def execUnassignedAccess (part : PartId) (addr : BitVec 24) (w : Option W32) (s : State) : Answer :=
  match part with
  | .die l => s.diePowered l fun d => d.unassigned addr.toNat w
  | .agg => s.aggReady fun g => g.unassigned addr.toNat w

/-- WIDE_LOW_READ (R40). -/
def execWideLowRead (part : PartId) (src : Src) (addr : BitVec 24) (s : State) : Answer :=
  match part with
  | .die l => s.diePowered l fun d => d.readPort src addr.toNat .ok
  | .agg => s.aggReady fun g => g.readBar src addr.toNat .ok

/-- HIGH_WORD_READ (R40). -/
def execHighWordRead (part : PartId) (src : Src) (addr : BitVec 24) (s : State) : Answer :=
  match part with
  | .die l => s.diePowered l fun d => d.readPort src addr.toNat .ok
  | .agg => s.aggReady fun g => g.readBar src addr.toNat .ok

/-- IND_DATA_READ (R49): `ecc` is the check result of the word read. -/
def execIndDataRead (part : PartId) (page : Fin 4096) (src : Src) (ecc : Ecc) (s : State) : Answer :=
  match part with
  | .die l => s.diePowered l fun d => match indPort page with
    | some a => d.readPort src (a + 4) ecc
    | none => d
  | .agg => s.aggReady fun g => match aggPort page with
    | some a => g.readBar src (a + 4) ecc
    | none => g

/-- IND_DATA_WRITE (R50): `ecc` is the check result of the word kept half of. -/
def execIndDataWrite (part : PartId) (page : Fin 4096) (w : W32) (ecc : Ecc) (s : State) : Answer :=
  match part with
  | .die l => s.diePowered l fun d => match indPort page with
    | some a => d.writePort (a + 4) w ecc
    | none => d
  | .agg => s.aggReady fun g => match aggPort page with
    | some a => g.barWrite (a + 4) w ecc
    | none => g

end Sys2Proof.Machine
end

