-- ==== Sys2Proof/Machine/RingCmds.lean ====
section
/-! DEFINITION. The commands of command rings and descriptors (chapter 16): what each does to State. -/

namespace Sys2Proof.Machine

/-- DOORBELL (R370). -/
def execDoorbell (ring : Fin 64) (w : W32) (s : State) : Answer :=
  s.aggReady fun g => g.barWrite (cmdRing ring + 0x4C) w .ok

/-- DESCRIPTOR_FETCH (R367): what the reads of the descriptor and of its WAIT value gave. -/
def execDescriptorFetch (ring : Fin 64) (res : HostRead) (wait : HostRead) (s : State) : Answer :=
  s.aggReady fun g => g.descFetch ring res wait

/-- NOP (R366). -/
def execNop (ring : Fin 64) (index : Nat) (s : State) : Answer := s.aggReady fun g => g.nopDesc ring index

/-- SIGNAL (R366). -/
def execSignal (ring : Fin 64) (index : Nat) (s : State) : Answer := s.aggReady fun g => g.signalDesc ring index

/-- REG_READ (R374). -/
def execRegRead (ring : Fin 64) (index : Nat) (s : State) : Answer := s.aggReady fun g => g.regRead ring index

/-- REG_WRITE (R374). -/
def execRegWrite (ring : Fin 64) (index : Nat) (res : HostRead) (s : State) : Answer :=
  s.aggReady fun g => g.regWriteDesc ring index res

/-- BULK_LOAD (R275). -/
def execBulkLoad (ring : Fin 64) (index : Nat) (res : HostRead) (s : State) : Answer :=
  s.aggReady fun g => g.bulkLoad ring index res

/-- RECORDER_READ (R376). -/
def execRecorderRead (ring : Fin 64) (index : Nat) (s : State) : Answer :=
  s.aggReady fun g => g.recorderRead ring index

/-- ROUTE_WRITE (R383). -/
def execRouteWrite (ring : Fin 64) (index : Nat) (res : HostRead) (s : State) : Answer :=
  s.aggReady fun g => g.routeWrite ring index res

/-- ROUTE_READ (R383). -/
def execRouteRead (ring : Fin 64) (index : Nat) (s : State) : Answer := s.aggReady fun g => g.routeRead ring index

/-- FENCE_SET (R386). -/
def execFenceSet (ring : Fin 64) (index : Nat) (res : HostRead) (s : State) : Answer :=
  s.aggReady fun g => g.fenceSet ring index res

/-- BCAST (R366). -/
def execBcast (ring : Fin 64) (index : Nat) (s : State) : Answer := s.aggReady fun g => g.bcastDesc ring index

/-- FW_MSG (R366). -/
def execFwMsg (ring : Fin 64) (index : Nat) (res : HostRead) (s : State) : Answer :=
  s.aggReady fun g => g.fwMsg ring index res

/-- DESCRIPTOR_COMPLETE (R367): whether the write of its completion faulted. -/
def execDescriptorComplete (ring : Fin 64) (index : Nat) (fault : Bool) (s : State) : Answer :=
  s.aggReady fun g => g.descComplete ring index fault

/-- WAIT_POLL (R368). -/
def execWaitPoll (ring : Fin 64) (res : HostRead) (s : State) : Answer := s.aggReady fun g => g.waitPoll ring res

/-- WAIT_EXPIRED (R368). -/
def execWaitExpired (ring : Fin 64) (s : State) : Answer := s.aggReady fun g => g.waitExpired ring

/-- RING_RESUME (R372): `good` counts the writes that succeed before a fault. -/
def execRingResume (ring : Fin 64) (good : Option Nat) (w : W32) (s : State) : Answer :=
  s.aggReady fun g => g.ringResume ring good w

/-- REG_TIMEOUT (R375). -/
def execRegTimeout (req : ReqName) (s : State) : Answer := s.aggReady fun g => g.regTimeout req

/-- REG_FRAME (R374). -/
def execRegFrame (h : EthHdr) (gdid : Nat) (id : Nat) (op : Nat) (nwords : Nat) (addr : Nat) (data : List W32) (s :
    State) : Answer :=
  s.aggReady fun g => g.regFrame h gdid id op nwords addr data

/-- REG_FRAME_RESPONSE (R374). -/
def execRegFrameResponse (h : EthHdr) (id : Nat) (status : Nat) (nwords : Nat) (data : List W32) (s : State) :
    Answer :=
  s.aggReady fun g => g.regFrameResp h id status nwords data

end Sys2Proof.Machine
end

