-- ==== Sys2Proof/Machine/SluiceCmds.lean ====
section
/-! DEFINITION. The commands of Sluice and the Tributary lanes (chapter 12): what each does to State. -/

namespace Sys2Proof.Machine

/-- COMPRESSION_DONE (R266). -/
def execCompressionDone (l : Lane) (s : State) : Answer := s.dieReady l fun d => d.compressionDone

/-- CELL_SEND (R279). -/
def execCellSend (lane : LaneEnd) (resid : Residence) (s : State) : Answer :=
  match lane with
  | .die l => s.dieReady l fun d => d.cellSend resid.ns resid.ecc
  | .agg l => s.aggReady fun g => g.cellSend l resid.ns resid.ecc

/-- GATE_CYCLE_BOUNDARY (R282). -/
def execGateCycleBoundary (lane : LaneEnd) (s : State) : Answer :=
  match lane with
  | .die l => s.dieReady l fun d => d.onLane fun p s => gateCycle p s none
  | .agg l => s.aggReady fun g => g.gateCycle l

/-- GCL_ENTRY_ADVANCE (R282). -/
def execGclEntryAdvance (lane : LaneEnd) (s : State) : Answer :=
  match lane with
  | .die l => s.dieReady l fun d => d.onPart fun p => gclAdvance p none
  | .agg l => s.aggReady fun g => g.gclAdvance l

/-- GCL_SWITCH_ARM (R284). -/
def execGclSwitchArm (lane : LaneEnd) (s : State) : Answer :=
  match lane with
  | .die l => s.diePowered l fun d => d.strobe 0x3012C 1
  | .agg l => s.aggReady fun g => g.strobe (tribAddr l + 0x12C) 1

/-- RECORD_CELL (R272): `fill` is how full the staging memory is, in percent. -/
def execRecordCell (l : Lane) (h : CellHdr) (bs : List Byte) (fill : Nat) (s : State) : Answer :=
  s.aggReady fun g => g.recordCell l h bs fill

/-- REG_REQ (R274): `es` are the check results of the indirect words it reads. -/
def execRegReq (l : Lane) (h : CellHdr) (id : Nat) (op : Nat) (nwords : Nat) (addr : Nat) (data : List W32) (es :
    List Ecc) (s : State) : Answer :=
  s.dieReady l fun d => d.regReqCell h id op nwords addr data es

/-- REG_REQ_PERFORM (R274). -/
def execRegReqPerform (l : Lane) (es : List Ecc) (s : State) : Answer := s.dieReady l fun d => d.performWaiting es

/-- REG_RESP (R375). -/
def execRegResp (l : Lane) (h : CellHdr) (id : Nat) (status : Nat) (nwords : Nat) (data : List W32) (s : State) :
    Answer :=
  s.aggReady fun g => g.regResp l h id status nwords data

/-- BULK (R275). -/
def execBulk (l : Lane) (h : CellHdr) (id : Nat) (target : Nat) (last : Bool) (offset : Nat) (data : List Byte) (s :
    State) : Answer :=
  s.dieReady l fun d => d.bulkCell h id target last offset data

/-- BULK_ACK (R275). -/
def execBulkAck (l : Lane) (h : CellHdr) (id : Nat) (status : Nat) (offset : Nat) (s : State) : Answer :=
  s.aggReady fun g => g.bulkAck l h id status offset

/-- SELFTEST_REQ_CELL (R187). -/
def execSelftestReqCell (l : Lane) (h : CellHdr) (engine : Nat) (tag : Nat) (s : State) : Answer :=
  s.dieReady l fun d => d.selftestReqCell h engine tag

/-- BORE_NOTE (R291). -/
def execBoreNote (l : Lane) (h : CellHdr) (e : BoreEvent) (time : Nat) (status : Nat) (s : State) : Answer :=
  s.aggReady fun g => g.boreNote l h e time status

/-- TRAIN (R276): the cell's payload fields; `refuse` is the TOPOLOGY cause where the child attaches beyond the limits. -/
def execTrain (lane : LaneEnd) (h : TrainHdr) (role port id : Nat) (refuse : Option Nat) (s : State) : Answer :=
  match lane with
  | .die l => s.dieReady l fun d => d.train h.cell role h.version port id
  | .agg l => s.aggReady fun g => g.train l h.cell role h.version port id refuse

/-- TRAIN_SEND (R276). -/
def execTrainSend (lane : LaneEnd) (s : State) : Answer :=
  match lane with
  | .die l => s.dieReady l fun d => d.trainSend
  | .agg l => s.aggReady fun g => g.trainSend l

/-- LINK_LOCK (R276). -/
def execLinkLock (lane : LaneEnd) (s : State) : Answer :=
  match lane with
  | .die l => s.dieReady l fun d => d.onLane fun p s => linkLock p s none
  | .agg l => s.aggReady fun g => g.linkLock l

/-- LINK_LOSS (R276): the cause, the FEC codewords corrected and uncorrectable, and its instant, which decides whether a cell is
half sent. -/
def execLinkLoss (lane : LaneEnd) (cause corrected bad at_ : Nat) (s : State) : Answer :=
  match lane with
  | .die l => s.dieReady l fun d => d.linkLoss cause (corrected, bad) at_
  | .agg l => s.aggReady fun g => g.linkLoss l cause (corrected, bad) at_

/-- TRAIN_TIMEOUT (R276). -/
def execTrainTimeout (lane : LaneEnd) (s : State) : Answer :=
  match lane with
  | .die l => s.dieReady l fun d => d.onLane fun p s => linkTimeout p s none
  | .agg l => s.aggReady fun g => g.linkTimeout l

/-- RETRAIN (R276). -/
def execRetrain (lane : LaneEnd) (s : State) : Answer :=
  match lane with
  | .die l => s.diePowered l fun d => d.strobe 0x31040 1
  | .agg l => s.aggReady fun g => g.strobe (tribAddr l + 0x40) 1

/-- CRC_ERR (R271). -/
def execCrcErr (lane : LaneEnd) (corrected : Nat) (bad : Nat) (s : State) : Answer :=
  match lane with
  | .die l => s.dieReady l fun d => d.crcBad (corrected, bad)
  | .agg l => s.aggReady fun g => g.crcBad l (corrected, bad)

end Sys2Proof.Machine
end

