-- ==== Sys2Proof/Machine/SpringCmds.lean ====
section
/-! DEFINITION. The commands of Spring (chapter 05): what each does to State. -/

namespace Sys2Proof.Machine

/-- STEP_MARKER (R106): `time` is when it arrived, in ns; `lost` names a marker overrun before it. -/
def execStepMarker (l : Lane) (step : W32) (time : Nat) (lost : Option Nat) (s : State) : Answer :=
  s.dieReady l fun d => d.stepMarker step.toNat time lost

/-- STEP_STORE_SEND (R109). -/
def execStepStoreSend (l : Lane) (s : State) : Answer := s.dieReady l fun d => d.stepStoreSend

/-- DELTAS_READY (R110). -/
def execDeltasReady (l : Lane) (s : State) : Answer := s.dieReady l fun d => d.deltasReady

/-- TAP_CLR (R103). -/
def execTapClr (l : Lane) (tap : Fin 2048) (s : State) : Answer := s.diePowered l fun d => d.strobe (tapBase tap) 1

/-- SPRING_CONFIG_WRITE (R112). -/
def execSpringConfigWrite (l : Lane) (addr : BitVec 24) (w : W32) (s : State) : Answer :=
  s.diePowered l fun d => d.writePort addr.toNat w .ok

/-- RETENTION_SEND (R117). -/
def execRetentionSend (x : ReadDie) (s : State) : Answer := s.dieReady x.lane fun d => d.retentionSend x.reads

/-- TAP_INC (R101). -/
def execTapInc (l : Lane) (tap : Fin 2048) (incs : List (Fin 16)) (s : State) : Answer :=
  s.dieReady l fun d => d.tapInc tap incs

/-- HP_SAMPLE (R105): the inputs’ points, values and HP_VALID. -/
def execHpSample (l : Lane) (vals : List (Nat × W16 × Bool)) (s : State) : Answer :=
  s.dieReady l fun d => d.hpStep vals

end Sys2Proof.Machine
end

