-- ==== Sys2Proof/Machine/TimeCmds.lean ====
section
/-! DEFINITION. The commands of power, readiness and time of a die (chapters 03, 17 and 18): what each does to State. -/

namespace Sys2Proof.Machine

/-- DIE_POWER_UP (R391): `slot` is the strap SLOT_ID and `ties` what the integrator tied. -/
def execDiePowerUp (l : Lane) (slot : Fin 16) (ties : Ties) (s : State) : Answer :=
  s.dieSupply l fun d => d.powerUp slot ties

/-- DIE_READY (R391): `refAt` is when the reference became present, in ns after VQ_VDD valid. -/
def execDieReady (l : Lane) (refAt : Option Nat) (s : State) : Answer := s.diePowered l fun d => d.becomeReady refAt

/-- DIE_POWER_LOSS (R413). -/
def execDiePowerLoss (l : Lane) (s : State) : Answer := s.dieSupply l fun d => d.powerLoss

/-- EARLY_ACCESS (R392). -/
def execEarlyAccess (l : Lane) (s : State) : Answer := s.diePowered l fun d => d.earlyAccess

/-- GDID_SET (R396). -/
def execGdidSet (l : Lane) (w : W32) (s : State) : Answer := s.diePowered l fun d => d.writePort 0x44 w .ok

/-- REF_LOSS (R65). -/
def execRefLoss (l : Lane) (s : State) : Answer := s.dieReady l fun d => d.refLoss

/-- REF_RETURN (R65). -/
def execRefReturn (l : Lane) (s : State) : Answer := s.dieReady l fun d => d.refReturn

/-- EXCHANGE_START (R59). -/
def execExchangeStart (s : State) : Answer := s.aggReady fun g => g.exchangeStart

/-- TIME_SYNC (R273): times in 2⁻¹⁶ ns. -/
def execTimeSync (l : Lane) (h : CellHdr) (exch : Nat) (t1 : Nat) (cDown : Nat) (s : State) : Answer :=
  s.dieReady l fun d => d.timeSyncCell h exch t1 cDown

/-- TIME_DELAY (R273). -/
def execTimeDelay (l : Lane) (h : CellHdr) (exch : Nat) (s : State) : Answer :=
  s.aggReady fun g => g.timeDelay l h exch

/-- TIME_RESP (R60). An exchange is stale once the aggregator
has started the next (R59). -/
def execTimeResp (l : Lane) (h : CellHdr) (exch : Nat) (stamp : RespStamp) (s : State) : Answer :=
  s.dieReady l fun d => d.timeRespCell h exch stamp.t4 (decide (s.agg.exch ≠ (exch + 1) % 4294967296)) stamp.samples

/-- EXCHANGE_INCOMPLETE (R59). -/
def execExchangeIncomplete (l : Lane) (s : State) : Answer := s.dieReady l fun d => d.exchangeIncomplete

/-- HOLD_TIMEOUT (R61). -/
def execHoldTimeout (l : Lane) (s : State) : Answer := s.dieReady l fun d => d.holdTimeout

/-- ARM_RESTEP (R63). -/
def execArmRestep (l : Lane) (s : State) : Answer := s.diePowered l fun d => d.strobe 0x104C 2

/-- DISARM (R63). -/
def execDisarm (l : Lane) (s : State) : Answer := s.diePowered l fun d => d.strobe 0x104C 4

/-- SERVO_EN_WRITE (R64). -/
def execServoEnWrite (l : Lane) (enable : Bool) (s : State) : Answer :=
  s.diePowered l fun d => d.access fun d => d.regWrite 0x104C (withBits (d.part.kept false 0x104C) 0 1 (b2n enable)) .ok

end Sys2Proof.Machine
end

