-- ==== Sys2Proof/Machine/WindowCmds.lean ====
section
/-! DEFINITION. The commands of windows, the trigger pool and self-timed operation (chapters 03 and 04): what each does to State. -/

namespace Sys2Proof.Machine

/-- WINDOW_BOUNDARY (R68): `ss` is what the stage-period monitors saw. -/
def execWindowBoundary (l : Lane) (ss : List MonSample) (s : State) : Answer :=
  s.dieReady l fun d => d.windowBoundary ss

/-- SWITCH_ARM (R69). -/
def execSwitchArm (l : Lane) (s : State) : Answer := s.diePowered l fun d => d.strobe 0x10B8 1

/-- TRIGGER_FIRE (R71). -/
def execTriggerFire (l : Lane) (s : State) : Answer := s.diePowered l fun d => d.triggerFire

/-- ADAPTER_TIMEOUT (R85). -/
def execAdapterTimeout (l : Lane) (group : Fin 5) (port : Nat) (phase : Nat) (what : Abandoned) (s : State) : Answer
    :=
  s.dieReady l fun d => d.adapterTimeout group port phase what

/-- DEADLINE_MISS (R89). -/
def execDeadlineMiss (part : PartId) (page : Fin 4096) (stage : Nat) (unit : Nat) (s : State) : Answer :=
  match part with
  | .die l => s.dieReady l fun d => d.deadlineMiss page stage unit
  | .agg => s.aggReady fun g => g.deadlineMiss page stage unit

/-- STAGE_HANG (R92). -/
def execStageHang (part : PartId) (page : Fin 4096) (stage : Nat) (unit : Nat) (s : State) : Answer :=
  match part with
  | .die l => s.dieReady l fun d => d.stageHang page stage unit
  | .agg => s.aggReady fun g => g.stageHang page stage unit

/-- BASE_CLEAR (R99). -/
def execBaseClear (l : Lane) (s : State) : Answer := s.diePowered l fun d => d.strobe 0x2040 4

end Sys2Proof.Machine
end

