-- ==== Sys2Proof/Machine/Dispatch.lean ====
section
/-! DEFINITION. One arm per command: its meaning, each called by its full name. -/

namespace Sys2Proof.Machine

open Sys2Proof

def exec (i : Instr) (s : State) : Host.Outcome State Fault Refusal :=
  match i with
  | .pageEnable part page => Sys2Proof.Machine.execPageEnable part page s
  | .pageDrain part page => Sys2Proof.Machine.execPageDrain part page s
  | .softClear part page => Sys2Proof.Machine.execSoftClear part page s
  | .pageLock part page => Sys2Proof.Machine.execPageLock part page s
  | .enableDone part page => Sys2Proof.Machine.execEnableDone part page s
  | .drainDone part page => Sys2Proof.Machine.execDrainDone part page s
  | .drainTimeout part page => Sys2Proof.Machine.execDrainTimeout part page s
  | .errStatClear part page w => Sys2Proof.Machine.execErrStatClear part page w s
  | .errInjectArm part page w => Sys2Proof.Machine.execErrInjectArm part page w s
  | .registerWrite part addr w => Sys2Proof.Machine.execRegisterWrite part addr w s
  | .unassignedAccess part addr w => Sys2Proof.Machine.execUnassignedAccess part addr w s
  | .wideLowRead part src addr => Sys2Proof.Machine.execWideLowRead part src addr s
  | .highWordRead part src addr => Sys2Proof.Machine.execHighWordRead part src addr s
  | .indDataRead part page src ecc => Sys2Proof.Machine.execIndDataRead part page src ecc s
  | .indDataWrite part page w ecc => Sys2Proof.Machine.execIndDataWrite part page w ecc s
  | .diePowerUp l slot ties => Sys2Proof.Machine.execDiePowerUp l slot ties s
  | .dieReady l refAt => Sys2Proof.Machine.execDieReady l refAt s
  | .diePowerLoss l => Sys2Proof.Machine.execDiePowerLoss l s
  | .earlyAccess l => Sys2Proof.Machine.execEarlyAccess l s
  | .gdidSet l w => Sys2Proof.Machine.execGdidSet l w s
  | .refLoss l => Sys2Proof.Machine.execRefLoss l s
  | .refReturn l => Sys2Proof.Machine.execRefReturn l s
  | .exchangeStart => Sys2Proof.Machine.execExchangeStart s
  | .timeSync l h exch t1 cDown => Sys2Proof.Machine.execTimeSync l h exch t1 cDown s
  | .timeDelay l h exch => Sys2Proof.Machine.execTimeDelay l h exch s
  | .timeResp l h exch stamp => Sys2Proof.Machine.execTimeResp l h exch stamp s
  | .exchangeIncomplete l => Sys2Proof.Machine.execExchangeIncomplete l s
  | .holdTimeout l => Sys2Proof.Machine.execHoldTimeout l s
  | .armRestep l => Sys2Proof.Machine.execArmRestep l s
  | .disarm l => Sys2Proof.Machine.execDisarm l s
  | .servoEnWrite l enable => Sys2Proof.Machine.execServoEnWrite l enable s
  | .windowBoundary l ss => Sys2Proof.Machine.execWindowBoundary l ss s
  | .switchArm l => Sys2Proof.Machine.execSwitchArm l s
  | .triggerFire l => Sys2Proof.Machine.execTriggerFire l s
  | .adapterTimeout l group port phase what => Sys2Proof.Machine.execAdapterTimeout l group port phase what s
  | .deadlineMiss part page stage unit => Sys2Proof.Machine.execDeadlineMiss part page stage unit s
  | .stageHang part page stage unit => Sys2Proof.Machine.execStageHang part page stage unit s
  | .baseClear l => Sys2Proof.Machine.execBaseClear l s
  | .stepMarker l step time lost => Sys2Proof.Machine.execStepMarker l step time lost s
  | .stepStoreSend l => Sys2Proof.Machine.execStepStoreSend l s
  | .deltasReady l => Sys2Proof.Machine.execDeltasReady l s
  | .tapClr l tap => Sys2Proof.Machine.execTapClr l tap s
  | .springConfigWrite l addr w => Sys2Proof.Machine.execSpringConfigWrite l addr w s
  | .retentionSend x => Sys2Proof.Machine.execRetentionSend x s
  | .riffleValidate l => Sys2Proof.Machine.execRiffleValidate l s
  | .riffleValidationDone l word ecc => Sys2Proof.Machine.execRiffleValidationDone l word ecc s
  | .riffleSwapArm l => Sys2Proof.Machine.execRiffleSwapArm l s
  | .featuresReady l word ecc => Sys2Proof.Machine.execFeaturesReady l word ecc s
  | .eddyValidate l slot => Sys2Proof.Machine.execEddyValidate l slot s
  | .eddyValidationDone l word ecc => Sys2Proof.Machine.execEddyValidationDone l word ecc s
  | .eddySwapArm l w => Sys2Proof.Machine.execEddySwapArm l w s
  | .scoresDelivered l times reads => Sys2Proof.Machine.execScoresDelivered l times reads s
  | .probeDue l x => Sys2Proof.Machine.execProbeDue l x s
  | .probeIssue l e busy load => Sys2Proof.Machine.execProbeIssue l e busy load s
  | .stealWaitExpired l e => Sys2Proof.Machine.execStealWaitExpired l e s
  | .probeResult l tag status res => Sys2Proof.Machine.execProbeResult l tag status res s
  | .selftestStart l => Sys2Proof.Machine.execSelftestStart l s
  | .probeTimeout l tag => Sys2Proof.Machine.execProbeTimeout l tag s
  | .engineErr l e code => Sys2Proof.Machine.execEngineErr l e code s
  | .refRetest l => Sys2Proof.Machine.execRefRetest l s
  | .refSelftestDone l pass tile mac => Sys2Proof.Machine.execRefSelftestDone l pass tile mac s
  | .selftestReq l w => Sys2Proof.Machine.execSelftestReq l w s
  | .replayGo l => Sys2Proof.Machine.execReplayGo l s
  | .levelWr l e w => Sys2Proof.Machine.execLevelWr l e w s
  | .tapCapture l e fmt a b c => Sys2Proof.Machine.execTapCapture l e fmt a b c s
  | .gateRequest l step => Sys2Proof.Machine.execGateRequest l step s
  | .decideAt l => Sys2Proof.Machine.execDecideAt l s
  | .gateResponseAck l => Sys2Proof.Machine.execGateResponseAck l s
  | .responseRepresent l => Sys2Proof.Machine.execResponseRepresent l s
  | .verdictRelease l tag => Sys2Proof.Machine.execVerdictRelease l tag s
  | .verdictDiscard l tag => Sys2Proof.Machine.execVerdictDiscard l tag s
  | .disputeSet l => Sys2Proof.Machine.execDisputeSet l s
  | .disputeClr l w => Sys2Proof.Machine.execDisputeClr l w s
  | .disputeCell l h tag unit => Sys2Proof.Machine.execDisputeCell l h tag unit s
  | .boreFrameReceive l pair copy seq ends e => Sys2Proof.Machine.execBoreFrameReceive l pair copy seq ends e s
  | .voteWindowExpired l => Sys2Proof.Machine.execVoteWindowExpired l s
  | .copyReset l => Sys2Proof.Machine.execCopyReset l s
  | .launch x => Sys2Proof.Machine.execLaunch x s
  | .aggBoreEcho src copies => Sys2Proof.Machine.execAggBoreEcho src copies s
  | .relayFrameReceive h group e => Sys2Proof.Machine.execRelayFrameReceive h group e s
  | .eventAckReceive l copies => Sys2Proof.Machine.execEventAckReceive l copies s
  | .snapshotPartSend l => Sys2Proof.Machine.execSnapshotPartSend l s
  | .coreArrive x core ctx sense => Sys2Proof.Machine.execCoreArrive x core ctx sense s
  | .registerArrive x ctx sense count => Sys2Proof.Machine.execRegisterArrive x ctx sense count s
  | .contextReset l ctx => Sys2Proof.Machine.execContextReset l ctx s
  | .contextEnable l ctx => Sys2Proof.Machine.execContextEnable l ctx s
  | .coreTapRecord l core rcd => Sys2Proof.Machine.execCoreTapRecord l core rcd s
  | .frameFormTimeout l core => Sys2Proof.Machine.execFrameFormTimeout l core s
  | .frameSend l => Sys2Proof.Machine.execFrameSend l s
  | .syncNow l core => Sys2Proof.Machine.execSyncNow l core s
  | .coreHalt l core => Sys2Proof.Machine.execCoreHalt l core s
  | .coreResume l core => Sys2Proof.Machine.execCoreResume l core s
  | .coreHalted l core => Sys2Proof.Machine.execCoreHalted l core s
  | .coreDrained l core => Sys2Proof.Machine.execCoreDrained l core s
  | .coreRunning l core => Sys2Proof.Machine.execCoreRunning l core s
  | .comparatorWrite l core off w => Sys2Proof.Machine.execComparatorWrite l core off w s
  | .compAck l core => Sys2Proof.Machine.execCompAck l core s
  | .compMatch l core index action => Sys2Proof.Machine.execCompMatch l core index action s
  | .crossLaunch x => Sys2Proof.Machine.execCrossLaunch x s
  | .bufArm l => Sys2Proof.Machine.execBufArm l s
  | .bufDisarm l => Sys2Proof.Machine.execBufDisarm l s
  | .trigNow l => Sys2Proof.Machine.execTrigNow l s
  | .bufUpload l => Sys2Proof.Machine.execBufUpload l s
  | .traceUploadSend l => Sys2Proof.Machine.execTraceUploadSend l s
  | .compressionDone l => Sys2Proof.Machine.execCompressionDone l s
  | .cellSend lane resid => Sys2Proof.Machine.execCellSend lane resid s
  | .gateCycleBoundary lane => Sys2Proof.Machine.execGateCycleBoundary lane s
  | .gclEntryAdvance lane => Sys2Proof.Machine.execGclEntryAdvance lane s
  | .gclSwitchArm lane => Sys2Proof.Machine.execGclSwitchArm lane s
  | .recordCell l h bs fill => Sys2Proof.Machine.execRecordCell l h bs fill s
  | .regReq l h id op nwords addr data es => Sys2Proof.Machine.execRegReq l h id op nwords addr data es s
  | .regReqPerform l es => Sys2Proof.Machine.execRegReqPerform l es s
  | .regResp l h id status nwords data => Sys2Proof.Machine.execRegResp l h id status nwords data s
  | .bulk l h id target last offset data => Sys2Proof.Machine.execBulk l h id target last offset data s
  | .bulkAck l h id status offset => Sys2Proof.Machine.execBulkAck l h id status offset s
  | .selftestReqCell l h engine tag => Sys2Proof.Machine.execSelftestReqCell l h engine tag s
  | .boreNote l h e time status => Sys2Proof.Machine.execBoreNote l h e time status s
  | .train lane h role port id refuse => Sys2Proof.Machine.execTrain lane h role port id refuse s
  | .trainSend lane => Sys2Proof.Machine.execTrainSend lane s
  | .linkLock lane => Sys2Proof.Machine.execLinkLock lane s
  | .linkLoss lane cause corrected bad at_ => Sys2Proof.Machine.execLinkLoss lane cause corrected bad at_ s
  | .trainTimeout lane => Sys2Proof.Machine.execTrainTimeout lane s
  | .retrain lane => Sys2Proof.Machine.execRetrain lane s
  | .stepRecordReceive l bs => Sys2Proof.Machine.execStepRecordReceive l bs s
  | .closeExpired job step => Sys2Proof.Machine.execCloseExpired job step s
  | .sketchSend r => Sys2Proof.Machine.execSketchSend r s
  | .sketchReceive h seg => Sys2Proof.Machine.execSketchReceive h seg s
  | .driftPeriod => Sys2Proof.Machine.execDriftPeriod s
  | .driftScoringDone => Sys2Proof.Machine.execDriftScoringDone s
  | .expelRetry l => Sys2Proof.Machine.execExpelRetry l s
  | .expelReq h gdid partition entity score => Sys2Proof.Machine.execExpelReq h gdid partition entity score s
  | .expelResp h gdid result cause => Sys2Proof.Machine.execExpelResp h gdid result cause s
  | .budgetMinute => Sys2Proof.Machine.execBudgetMinute s
  | .aliveExpired l path => Sys2Proof.Machine.execAliveExpired l path s
  | .disagreeExpired l => Sys2Proof.Machine.execDisagreeExpired l s
  | .dieDisputeClr l tag => Sys2Proof.Machine.execDieDisputeClr l tag s
  | .recClr l => Sys2Proof.Machine.execRecClr l s
  | .bcastReceive h m child => Sys2Proof.Machine.execBcastReceive h m child s
  | .hopAck h id op => Sys2Proof.Machine.execHopAck h id op s
  | .hopAckTimeout id node => Sys2Proof.Machine.execHopAckTimeout id node s
  | .ackGatherExpired id => Sys2Proof.Machine.execAckGatherExpired id s
  | .ready h id op pooled refused unreached node => Sys2Proof.Machine.execReady h id op pooled refused unreached node s
  | .bcastDecide id => Sys2Proof.Machine.execBcastDecide id s
  | .confirm h m child => Sys2Proof.Machine.execConfirm h m child s
  | .bcastAbort h m body child => Sys2Proof.Machine.execBcastAbort h m body child s
  | .confirmAckCheck id => Sys2Proof.Machine.execConfirmAckCheck id s
  | .traySelfAbort id => Sys2Proof.Machine.execTraySelfAbort id s
  | .startSplit id => Sys2Proof.Machine.execStartSplit id s
  | .freezeNow => Sys2Proof.Machine.execFreezeNow s
  | .unfreeze => Sys2Proof.Machine.execUnfreeze s
  | .freezePostExpired => Sys2Proof.Machine.execFreezePostExpired s
  | .freezeMaxExpired => Sys2Proof.Machine.execFreezeMaxExpired s
  | .modelValidate cls => Sys2Proof.Machine.execModelValidate cls s
  | .modelSwapArm cls => Sys2Proof.Machine.execModelSwapArm cls s
  | .watchdogExpiry c lost => Sys2Proof.Machine.execWatchdogExpiry c lost s
  | .coreSelfCheckDone c => Sys2Proof.Machine.execCoreSelfCheckDone c s
  | .checkpoint task => Sys2Proof.Machine.execCheckpoint task s
  | .checkpointLate task => Sys2Proof.Machine.execCheckpointLate task s
  | .reqTail pair w => Sys2Proof.Machine.execReqTail pair w s
  | .ping src => Sys2Proof.Machine.execPing src s
  | .getInfo src => Sys2Proof.Machine.execGetInfo src s
  | .getLog src => Sys2Proof.Machine.execGetLog src s
  | .fwVerify src => Sys2Proof.Machine.execFwVerify src s
  | .fwActivate src => Sys2Proof.Machine.execFwActivate src s
  | .fwCommit src => Sys2Proof.Machine.execFwCommit src s
  | .fwRevert src => Sys2Proof.Machine.execFwRevert src s
  | .sbRead src => Sys2Proof.Machine.execSbRead src s
  | .sbWrite src => Sys2Proof.Machine.execSbWrite src s
  | .sbScan src => Sys2Proof.Machine.execSbScan src s
  | .sbTransactionDone bus res sensor => Sys2Proof.Machine.execSbTransactionDone bus res sensor s
  | .sbTimeout bus => Sys2Proof.Machine.execSbTimeout bus s
  | .sbAlert bus addr => Sys2Proof.Machine.execSbAlert bus addr s
  | .imageVerifyDone crypt => Sys2Proof.Machine.execImageVerifyDone crypt s
  | .newReady => Sys2Proof.Machine.execNewReady s
  | .newRefuse => Sys2Proof.Machine.execNewRefuse s
  | .handoffTimeout => Sys2Proof.Machine.execHandoffTimeout s
  | .probationEnd => Sys2Proof.Machine.execProbationEnd s
  | .stagingWrite off bs => Sys2Proof.Machine.execStagingWrite off bs s
  | .romLoad => Sys2Proof.Machine.execRomLoad s
  | .bootLoadDone primary backup => Sys2Proof.Machine.execBootLoadDone primary backup s
  | .heartbeat w => Sys2Proof.Machine.execHeartbeat w s
  | .attach w => Sys2Proof.Machine.execAttach w s
  | .attachDone => Sys2Proof.Machine.execAttachDone s
  | .detach => Sys2Proof.Machine.execDetach s
  | .hostTimeout => Sys2Proof.Machine.execHostTimeout s
  | .busLoss cause => Sys2Proof.Machine.execBusLoss cause s
  | .adcConversion chan res => Sys2Proof.Machine.execAdcConversion chan res s
  | .vrmOffExpired l => Sys2Proof.Machine.execVrmOffExpired l s
  | .shutClr w => Sys2Proof.Machine.execShutClr w s
  | .forceThrottle w => Sys2Proof.Machine.execForceThrottle w s
  | .limitTighten addr w => Sys2Proof.Machine.execLimitTighten addr w s
  | .powerGrant l op => Sys2Proof.Machine.execPowerGrant l op s
  | .pstepNoGrant l => Sys2Proof.Machine.execPstepNoGrant l s
  | .planArm => Sys2Proof.Machine.execPlanArm s
  | .planStop => Sys2Proof.Machine.execPlanStop s
  | .planLaunch => Sys2Proof.Machine.execPlanLaunch s
  | .doorbell ring w => Sys2Proof.Machine.execDoorbell ring w s
  | .descriptorFetch ring res wait => Sys2Proof.Machine.execDescriptorFetch ring res wait s
  | .nop ring index => Sys2Proof.Machine.execNop ring index s
  | .signal ring index => Sys2Proof.Machine.execSignal ring index s
  | .regRead ring index => Sys2Proof.Machine.execRegRead ring index s
  | .regWrite ring index res => Sys2Proof.Machine.execRegWrite ring index res s
  | .bulkLoad ring index res => Sys2Proof.Machine.execBulkLoad ring index res s
  | .recorderRead ring index => Sys2Proof.Machine.execRecorderRead ring index s
  | .routeWrite ring index res => Sys2Proof.Machine.execRouteWrite ring index res s
  | .routeRead ring index => Sys2Proof.Machine.execRouteRead ring index s
  | .fenceSet ring index res => Sys2Proof.Machine.execFenceSet ring index res s
  | .bcast ring index => Sys2Proof.Machine.execBcast ring index s
  | .fwMsg ring index res => Sys2Proof.Machine.execFwMsg ring index res s
  | .descriptorComplete ring index fault => Sys2Proof.Machine.execDescriptorComplete ring index fault s
  | .waitPoll ring res => Sys2Proof.Machine.execWaitPoll ring res s
  | .waitExpired ring => Sys2Proof.Machine.execWaitExpired ring s
  | .ringResume ring good w => Sys2Proof.Machine.execRingResume ring good w s
  | .regTimeout req => Sys2Proof.Machine.execRegTimeout req s
  | .regFrame h gdid id op nwords addr data => Sys2Proof.Machine.execRegFrame h gdid id op nwords addr data s
  | .regFrameResponse h id status nwords data => Sys2Proof.Machine.execRegFrameResponse h id status nwords data s
  | .forwardedRecord h gdid kind bs => Sys2Proof.Machine.execForwardedRecord h gdid kind bs s
  | .ethLinkDown port cause corrected bad => Sys2Proof.Machine.execEthLinkDown port cause corrected bad s
  | .ethRetrain port => Sys2Proof.Machine.execEthRetrain port s
  | .prpSupervision => Sys2Proof.Machine.execPrpSupervision s
  | .prpLanDown port => Sys2Proof.Machine.execPrpLanDown port s
  | .ptpMessage port m => Sys2Proof.Machine.execPtpMessage port m s
  | .ptpSyncMissed => Sys2Proof.Machine.execPtpSyncMissed s
  | .ptpHoldTimeout => Sys2Proof.Machine.execPtpHoldTimeout s
  | .ptpArmRestep => Sys2Proof.Machine.execPtpArmRestep s
  | .ptpDisarm => Sys2Proof.Machine.execPtpDisarm s
  | .readAll l => Sys2Proof.Machine.execReadAll l s
  | .readOne l target => Sys2Proof.Machine.execReadOne l target s
  | .identTargetDone l res => Sys2Proof.Machine.execIdentTargetDone l res s
  | .topologyCheck l => Sys2Proof.Machine.execTopologyCheck l s
  | .boardRecordDone res signed => Sys2Proof.Machine.execBoardRecordDone res signed s
  | .partRecordRead item res => Sys2Proof.Machine.execPartRecordRead item res s
  | .suppliesValid role idMode hostEn => Sys2Proof.Machine.execSuppliesValid role idMode hostEn s
  | .hardwareReady => Sys2Proof.Machine.execHardwareReady s
  | .supplyRange supply v => Sys2Proof.Machine.execSupplyRange supply v s
  | .aggPowerLoss => Sys2Proof.Machine.execAggPowerLoss s
  | .resetNAssert => Sys2Proof.Machine.execResetNAssert s
  | .resetNRise role idMode hostEn => Sys2Proof.Machine.execResetNRise role idMode hostEn s
  | .ref156Loss => Sys2Proof.Machine.execRef156Loss s
  | .ref156Return => Sys2Proof.Machine.execRef156Return s
  | .thermWarn t => Sys2Proof.Machine.execThermWarn t s
  | .thermalTrip => Sys2Proof.Machine.execThermalTrip s
  | .dramRetrain => Sys2Proof.Machine.execDramRetrain s
  | .dramTrainingDone fail => Sys2Proof.Machine.execDramTrainingDone fail s
  | .tapInc l tap incs => Sys2Proof.Machine.execTapInc l tap incs s
  | .hpSample l vals => Sys2Proof.Machine.execHpSample l vals s
  | .crcErr lane corrected bad => Sys2Proof.Machine.execCrcErr lane corrected bad s
  | .ethLinkUp port => Sys2Proof.Machine.execEthLinkUp port s
  | .pcieLinkUp speed width flit ats => Sys2Proof.Machine.execPcieLinkUp speed width flit ats s
  | .supplyWithinRange supply v => Sys2Proof.Machine.execSupplyWithinRange supply v s
  | .tempDerate chan derate mr4 => Sys2Proof.Machine.execTempDerate chan derate mr4 s
  | .bar2Write addr bs => Sys2Proof.Machine.execBar2Write addr bs s

end Sys2Proof.Machine
end

