-- ==== Sys2Proof/Safety.lean ====
section
/-! DEFINITION. What holds of the block after every command, in the terms claims use. -/

namespace Sys2Proof.Machine

/-- The interrupt outputs of every die follow their conditions (R425). -/
def IrqShown (s : State) : Prop := ∀ l : Lane, (s.die l).irq = (s.die l).irqNow

/-- FAULT_N follows its conditions while the aggregator has power, and is released without (R453). -/
def FaultShown (s : State) : Prop := s.agg.faultN = (s.agg.phase != .off && s.agg.faultNow)

/-- The outputs of the tray show its state. -/
def OutputsShown (s : State) : Prop := IrqShown s ∧ FaultShown s

/-- Two states whose dies other than that of a lane, and whose aggregator, are alike. -/
def SameButDie (l : Lane) (s t : State) : Prop := (∀ k : Lane, k ≠ l → t.die k = s.die k) ∧ t.agg = s.agg

/-- Two states whose dies are alike. -/
def SameDies (s t : State) : Prop := ∀ k : Lane, t.die k = s.die k

/-- A die that takes every command: its supply is valid and it is ready (R391). -/
def Die.Up (d : Die) : Prop := d.powered = true ∧ d.ready = true

/-- What a command to the die of a lane answers: `f`, between the beginning and the end every command has, and nothing else
of the block changed. -/
def DieDoes (s : State) (c : Instr) (l : Lane) (f : Die → Die) : Prop :=
  exec c s = .next (s.onDie l fun d => (f d.begin_).finish)

/-- What a command to the aggregator answers. -/
def AggDoes (s : State) (c : Instr) (f : Agg → Agg) : Prop := exec c s = .next (s.onAgg fun g => (f g.begin_).finish)

/-- What a write of word `w` at `addr` does to a die: `f`, unless an armed ACCESS_ERR of the page turns the access away, which
spends it (R47). -/
def Die.admitted (d : Die) (addr : Nat) (w : W32) (f : Die → Die) : Die :=
  if d.part.accessFault (addr / 0x1000) (addr % 0x1000) true then
    d.onPart fun p => p.accessErr (addr / 0x1000) addr w true
  else f d

/-- The same for a write of BAR0. -/
def Agg.admitted (g : Agg) (addr : Nat) (w : W32) (f : Agg → Agg) : Agg :=
  if g.part.accessFault (addr / 0x1000) (addr % 0x1000) true then
    g.onPart fun p => p.accessErr (addr / 0x1000) addr w true
  else f g

/-- What a write of the command bits `b` of a register does to a die: the register's kept fields go with them. -/
def Die.commanded (d : Die) (addr b : Nat) (f : Die → Die) : Die :=
  d.admitted addr (d.part.kept false addr ||| BitVec.ofNat 32 b) f

/-- The same for the aggregator. -/
def Agg.commanded (g : Agg) (addr b : Nat) (f : Agg → Agg) : Agg :=
  g.admitted addr (g.part.kept true addr ||| BitVec.ofNat 32 b) f

/-- The part a lane end belongs to. -/
def laneEndPart : LaneEnd → PartId
  | .die l => .die l
  | .agg _ => .agg

/-- The part a command reaches. -/
def partOf : Instr → PartId
  | .pageEnable part _ => part
  | .pageDrain part _ => part
  | .softClear part _ => part
  | .pageLock part _ => part
  | .enableDone part _ => part
  | .drainDone part _ => part
  | .drainTimeout part _ => part
  | .errStatClear part _ _ => part
  | .errInjectArm part _ _ => part
  | .registerWrite part _ _ => part
  | .unassignedAccess part _ _ => part
  | .wideLowRead part _ _ => part
  | .highWordRead part _ _ => part
  | .indDataRead part _ _ _ => part
  | .indDataWrite part _ _ _ => part
  | .diePowerUp l _ _ => .die l
  | .dieReady l _ => .die l
  | .diePowerLoss l => .die l
  | .earlyAccess l => .die l
  | .gdidSet l _ => .die l
  | .refLoss l => .die l
  | .refReturn l => .die l
  | .exchangeStart => .agg
  | .timeSync l _ _ _ _ => .die l
  | .timeDelay _ _ _ => .agg
  | .timeResp l _ _ _ => .die l
  | .exchangeIncomplete l => .die l
  | .holdTimeout l => .die l
  | .armRestep l => .die l
  | .disarm l => .die l
  | .servoEnWrite l _ => .die l
  | .windowBoundary l _ => .die l
  | .switchArm l => .die l
  | .triggerFire l => .die l
  | .adapterTimeout l _ _ _ _ => .die l
  | .deadlineMiss part _ _ _ => part
  | .stageHang part _ _ _ => part
  | .baseClear l => .die l
  | .stepMarker l _ _ _ => .die l
  | .stepStoreSend l => .die l
  | .deltasReady l => .die l
  | .tapClr l _ => .die l
  | .springConfigWrite l _ _ => .die l
  | .retentionSend x => .die x.lane
  | .riffleValidate l => .die l
  | .riffleValidationDone l _ _ => .die l
  | .riffleSwapArm l => .die l
  | .featuresReady l _ _ => .die l
  | .eddyValidate l _ => .die l
  | .eddyValidationDone l _ _ => .die l
  | .eddySwapArm l _ => .die l
  | .scoresDelivered l _ _ => .die l
  | .probeDue l _ => .die l
  | .probeIssue l _ _ _ => .die l
  | .stealWaitExpired l _ => .die l
  | .probeResult l _ _ _ => .die l
  | .selftestStart l => .die l
  | .probeTimeout l _ => .die l
  | .engineErr l _ _ => .die l
  | .refRetest l => .die l
  | .refSelftestDone l _ _ _ => .die l
  | .selftestReq l _ => .die l
  | .replayGo l => .die l
  | .levelWr l _ _ => .die l
  | .tapCapture l _ _ _ _ _ => .die l
  | .gateRequest l _ => .die l
  | .decideAt l => .die l
  | .gateResponseAck l => .die l
  | .responseRepresent l => .die l
  | .verdictRelease l _ => .die l
  | .verdictDiscard l _ => .die l
  | .disputeSet l => .die l
  | .disputeClr l _ => .die l
  | .disputeCell l _ _ _ => .die l
  | .boreFrameReceive l _ _ _ _ _ => .die l
  | .voteWindowExpired l => .die l
  | .copyReset l => .die l
  | .launch x => .die x.lane
  | .aggBoreEcho _ _ => .agg
  | .relayFrameReceive _ _ _ => .agg
  | .eventAckReceive _ _ => .agg
  | .snapshotPartSend l => .die l
  | .coreArrive x _ _ _ => .die x.lane
  | .registerArrive x _ _ _ => .die x.lane
  | .contextReset l _ => .die l
  | .contextEnable l _ => .die l
  | .coreTapRecord l _ _ => .die l
  | .frameFormTimeout l _ => .die l
  | .frameSend l => .die l
  | .syncNow l _ => .die l
  | .coreHalt l _ => .die l
  | .coreResume l _ => .die l
  | .coreHalted l _ => .die l
  | .coreDrained l _ => .die l
  | .coreRunning l _ => .die l
  | .comparatorWrite l _ _ _ => .die l
  | .compAck l _ => .die l
  | .compMatch l _ _ _ => .die l
  | .crossLaunch x => .die x.lane
  | .bufArm l => .die l
  | .bufDisarm l => .die l
  | .trigNow l => .die l
  | .bufUpload l => .die l
  | .traceUploadSend l => .die l
  | .compressionDone l => .die l
  | .cellSend lane _ => laneEndPart lane
  | .gateCycleBoundary lane => laneEndPart lane
  | .gclEntryAdvance lane => laneEndPart lane
  | .gclSwitchArm lane => laneEndPart lane
  | .recordCell _ _ _ _ => .agg
  | .regReq l _ _ _ _ _ _ _ => .die l
  | .regReqPerform l _ => .die l
  | .regResp _ _ _ _ _ _ => .agg
  | .bulk l _ _ _ _ _ _ => .die l
  | .bulkAck _ _ _ _ _ => .agg
  | .selftestReqCell l _ _ _ => .die l
  | .boreNote _ _ _ _ _ => .agg
  | .train lane _ _ _ _ _ => laneEndPart lane
  | .trainSend lane => laneEndPart lane
  | .linkLock lane => laneEndPart lane
  | .linkLoss lane _ _ _ _ => laneEndPart lane
  | .trainTimeout lane => laneEndPart lane
  | .retrain lane => laneEndPart lane
  | .stepRecordReceive _ _ => .agg
  | .closeExpired _ _ => .agg
  | .sketchSend _ => .agg
  | .sketchReceive _ _ => .agg
  | .driftPeriod => .agg
  | .driftScoringDone => .agg
  | .expelRetry _ => .agg
  | .expelReq _ _ _ _ _ => .agg
  | .expelResp _ _ _ _ => .agg
  | .budgetMinute => .agg
  | .aliveExpired _ _ => .agg
  | .disagreeExpired _ => .agg
  | .dieDisputeClr _ _ => .agg
  | .recClr _ => .agg
  | .bcastReceive _ _ _ => .agg
  | .hopAck _ _ _ => .agg
  | .hopAckTimeout _ _ => .agg
  | .ackGatherExpired _ => .agg
  | .ready _ _ _ _ _ _ _ => .agg
  | .bcastDecide _ => .agg
  | .confirm _ _ _ => .agg
  | .bcastAbort _ _ _ _ => .agg
  | .confirmAckCheck _ => .agg
  | .traySelfAbort _ => .agg
  | .startSplit _ => .agg
  | .freezeNow => .agg
  | .unfreeze => .agg
  | .freezePostExpired => .agg
  | .freezeMaxExpired => .agg
  | .modelValidate _ => .agg
  | .modelSwapArm _ => .agg
  | .watchdogExpiry _ _ => .agg
  | .coreSelfCheckDone _ => .agg
  | .checkpoint _ => .agg
  | .checkpointLate _ => .agg
  | .reqTail _ _ => .agg
  | .ping _ => .agg
  | .getInfo _ => .agg
  | .getLog _ => .agg
  | .fwVerify _ => .agg
  | .fwActivate _ => .agg
  | .fwCommit _ => .agg
  | .fwRevert _ => .agg
  | .sbRead _ => .agg
  | .sbWrite _ => .agg
  | .sbScan _ => .agg
  | .sbTransactionDone _ _ _ => .agg
  | .sbTimeout _ => .agg
  | .sbAlert _ _ => .agg
  | .imageVerifyDone _ => .agg
  | .newReady => .agg
  | .newRefuse => .agg
  | .handoffTimeout => .agg
  | .probationEnd => .agg
  | .stagingWrite _ _ => .agg
  | .romLoad => .agg
  | .bootLoadDone _ _ => .agg
  | .heartbeat _ => .agg
  | .attach _ => .agg
  | .attachDone => .agg
  | .detach => .agg
  | .hostTimeout => .agg
  | .busLoss _ => .agg
  | .adcConversion _ _ => .agg
  | .vrmOffExpired _ => .agg
  | .shutClr _ => .agg
  | .forceThrottle _ => .agg
  | .limitTighten _ _ => .agg
  | .powerGrant l _ => .die l
  | .pstepNoGrant l => .die l
  | .planArm => .agg
  | .planStop => .agg
  | .planLaunch => .agg
  | .doorbell _ _ => .agg
  | .descriptorFetch _ _ _ => .agg
  | .nop _ _ => .agg
  | .signal _ _ => .agg
  | .regRead _ _ => .agg
  | .regWrite _ _ _ => .agg
  | .bulkLoad _ _ _ => .agg
  | .recorderRead _ _ => .agg
  | .routeWrite _ _ _ => .agg
  | .routeRead _ _ => .agg
  | .fenceSet _ _ _ => .agg
  | .bcast _ _ => .agg
  | .fwMsg _ _ _ => .agg
  | .descriptorComplete _ _ _ => .agg
  | .waitPoll _ _ => .agg
  | .waitExpired _ => .agg
  | .ringResume _ _ _ => .agg
  | .regTimeout _ => .agg
  | .regFrame _ _ _ _ _ _ _ => .agg
  | .regFrameResponse _ _ _ _ _ => .agg
  | .forwardedRecord _ _ _ _ => .agg
  | .ethLinkDown _ _ _ _ => .agg
  | .ethRetrain _ => .agg
  | .prpSupervision => .agg
  | .prpLanDown _ => .agg
  | .ptpMessage _ _ => .agg
  | .ptpSyncMissed => .agg
  | .ptpHoldTimeout => .agg
  | .ptpArmRestep => .agg
  | .ptpDisarm => .agg
  | .readAll l => .die l
  | .readOne l _ => .die l
  | .identTargetDone l _ => .die l
  | .topologyCheck _ => .agg
  | .boardRecordDone _ _ => .agg
  | .partRecordRead _ _ => .agg
  | .suppliesValid _ _ _ => .agg
  | .hardwareReady => .agg
  | .supplyRange _ _ => .agg
  | .aggPowerLoss => .agg
  | .resetNAssert => .agg
  | .resetNRise _ _ _ => .agg
  | .ref156Loss => .agg
  | .ref156Return => .agg
  | .thermWarn _ => .agg
  | .thermalTrip => .agg
  | .dramRetrain => .agg
  | .dramTrainingDone _ => .agg
  | .tapInc l _ _ => .die l
  | .hpSample l _ => .die l
  | .crcErr lane _ _ => laneEndPart lane
  | .ethLinkUp _ => .agg
  | .pcieLinkUp _ _ _ _ => .agg
  | .supplyWithinRange _ _ => .agg
  | .tempDerate _ _ _ => .agg
  | .bar2Write _ _ => .agg

/-- Whether a command is one about the supply of a die, which is not asked for power first. -/
def isSupply : Instr → Bool
  | .diePowerUp _ _ _ => true
  | .diePowerLoss _ => true
  | _ => false

/-- Whether a command is one about the aggregator's supplies and resets, which is not asked for readiness first. -/
def isChip : Instr → Bool
  | .suppliesValid _ _ _ => true
  | .hardwareReady => true
  | .supplyRange _ _ => true
  | .supplyWithinRange _ _ => true
  | .aggPowerLoss => true
  | .resetNAssert => true
  | .resetNRise _ _ _ => true
  | .dramTrainingDone _ => true
  | .adcConversion _ _ => true
  | .vrmOffExpired _ => true
  | .ref156Loss => true
  | .ref156Return => true
  | .thermWarn _ => true
  | .thermalTrip => true
  | _ => false

end Sys2Proof.Machine
end

