-- ==== Sys2Proof/Certificates/Slice0/Obligations.lean ====
section
/-! DEFINITION. The statements for the provers: each says what a rule of the spec, or a choice the log names, makes of the block. -/

open Sys2Proof Sys2Proof.Machine

/-- For every command c, every list cs and every state s: when c stands at the front of the queue and cs behind it, step
is exec of c on the same state with cs as its queue. (Syntax of the block: opcode_table.json, 00_scope.md) -/
def Obligations.StepRunsTheFrontCommand : Prop :=
  ∀ (s : State) (c : Instr) (cs : List Instr), s.pending = c :: cs → step s = exec c { s with pending := cs }

/-- On an empty queue a step answers the state in which every die with power has advanced its counter by two reference
edges, each of INC_NS, INC_FRAC and the trim in force, and the aggregator, with power, has advanced its counter by 6.4
ns and the trim in force; a part that has lost its reference adds no trim (R65). The queue stays empty. That time
passes so in place of idling is the model's choice (log entry 37). (R55, R65, R443, log entry 37) -/
def Obligations.IdleStepAdvancesTime : Prop :=
  ∀ s : State, s.pending = [] →
    ∃ t : State, step s = .next t ∧ t.pending = [] ∧
      (∀ l : Lane, (s.die l).powered = false → t.die l = s.die l) ∧
      (∀ l : Lane, (s.die l).powered = true → t.die l = ((s.die l).begin_.onPart fun p =>
        { p with time := BitVec.ofInt 96 ((p.time.toNat : Int) +
          2 * ((p.fld 0x1054 0 4 : Int) * 4294967296 + p.num 0x1058 + (if p.disc.refLoss then 0 else p.disc.trim))) }).finish) ∧
      t.agg = (if s.agg.phase = .off then s.agg.begin_ else s.agg.begin_.onPart fun p =>
        { p with time := BitVec.ofInt 96 ((p.time.toNat : Int) + (6 * 4294967296 + 1717986918 + (if p.disc.refLoss then 0 else p.disc.trim))) }).finish

/-- For every command and every state exec answers a next state, never a fault and never a refusal, and that state has the
queue it was given. (R34, R392, R414) -/
def Obligations.EveryCommandAnswersANextState : Prop :=
  ∀ (c : Instr) (s : State), ∃ t : State, exec c s = .next t ∧ t.pending = s.pending

/-- For every command c and state s, and the state t exec answers: where c goes to the die of lane l, every other die and
the aggregator are unchanged; where c goes to the aggregator, every die is unchanged. The parts act on each other only
through what they present to one another (field out), which a further command carries across. (R30, R414, R441) -/
def Obligations.CommandsReachOnePart : Prop :=
  ∀ (c : Instr) (s t : State), exec c s = .next t →
    match partOf c with
    | .die l => SameButDie l s t
    | .agg => SameDies s t

/-- For every command c to the die of lane l other than DIE_POWER_UP and DIE_POWER_LOSS: while VQ_VDD of that die is not
valid, exec answers the state it was given. (R391, R414, 17_power_up_identity.md) -/
def Obligations.DieWithoutPowerTakesNothing : Prop :=
  ∀ (c : Instr) (s : State) (l : Lane), partOf c = .die l → isSupply c = false → (s.die l).powered = false →
    exec c s = .next s

/-- For every command c to the aggregator other than those about its supplies and resets, LPDDR5X training, ADC
conversions, the VRM timers, REF156 and the chip temperature: while the aggregator is not ready, exec answers the
state it was given. (R320, R408, R446) -/
def Obligations.AggregatorNotReadyTakesNothing : Prop :=
  ∀ (c : Instr) (s : State), partOf c = .agg → isChip c = false → s.agg.phase ≠ .ready → exec c s = .next s

/-- From every state in which the four interrupt outputs of every die equal their conditions (error summary, Bore
attention, Meander attention, general attention; all 0 while the die is not ready) and FAULT_N of the aggregator
equals its condition (a supply out of range, REF156 lost, a FAULTED DRAM page or the thermal trip, while it has
power), every step, whatever command it takes, answers a state in which they do again. (R425, R453, R414) -/
def Obligations.OutputsFollowTheirConditions : Prop :=
  ∀ s t : State, OutputsShown s → step s = .next t → OutputsShown t

/-- State.reset meets OutputsShown; its queue is empty, every die has power and is not ready with all interrupt outputs
low, and the aggregator waits for hardware-ready with FAULT_N released. (R54, R391, R440) -/
def Obligations.ResetShowsItsOutputs : Prop :=
  OutputsShown State.reset ∧ State.reset.pending = [] ∧ State.reset.agg.phase = .valid ∧
    State.reset.agg.faultN = false ∧
    ∀ l : Lane, (State.reset.die l).powered = true ∧ (State.reset.die l).ready = false ∧ (State.reset.die l).irq = 0

/-- In State.reset every register word of every die reads the reset value of its row (0 where no row lists it), every page
header of every die is the reset header (OFF, unlocked, no error, DEADLINE_NS at its default), and so are those of the
aggregator, but for the strap fields of ID_STAT. (R54, R37, R87) -/
def Obligations.RegistersResetToTheirTable : Prop :=
  (∀ (l : Lane) (a : Nat), (State.reset.die l).part.rd a = resetWord false a) ∧
    (∀ (l : Lane) (page : Nat), (State.reset.die l).part.hdr page = resetHdr false page) ∧
    (∀ a : Nat, a ≠ 0x40 → State.reset.agg.part.rd a = resetWord true a) ∧
    (∀ page : Nat, State.reset.agg.part.hdr page = resetHdr true page)

/-- For every buffer memory m in canonical form, byte address a and bytes bs: after the bytes are written from a on, every
address inside reads the byte written there, every other address reads as before, and the memory is in canonical form
again. (R49, 02_register_pages.md) -/
def Obligations.MemoryReadsBackWhatWasWritten : Prop :=
  ∀ (m : Mem) (a : Nat) (bs : List Byte), Mem.wf m →
    Mem.wf (Mem.wrBytes m a bs) ∧
    (∀ (i : Nat) (b : Byte), bs[i]? = some b → Mem.rd8 (Mem.wrBytes m a bs) (a + i) = b) ∧
    (∀ k : Nat, k < a ∨ a + bs.length ≤ k → Mem.rd8 (Mem.wrBytes m a bs) k = Mem.rd8 m k)

/-- For every part p, address a, word w and other address b: after a is set to w it reads w, every other register word
reads as before, and page headers, time, discipline, stage items and records emitted are untouched. (R35, R38, R54) -/
def Obligations.RegisterWordsAreIndependent : Prop :=
  ∀ (p : Part) (a b : Nat) (w : W32), swf (resetWord p.isAgg) p.regs = true →
    (p.wr a w).rd a = w ∧ (b ≠ a → (p.wr a w).rd b = p.rd b) ∧ swf (resetWord p.isAgg) (p.wr a w).regs = true ∧
      (p.wr a w).hdrs = p.hdrs ∧ (p.wr a w).time = p.time ∧ (p.wr a w).disc = p.disc ∧
      (p.wr a w).stages = p.stages ∧ (p.wr a w).emitted = p.emitted

/-- For every die: at the end of a command no record emitted is left, and Spring, Riffle, Eddy (but for the deadline of
windows before a schedule switch that falls due then), Gauge, Oxbow, Bore, Meander, monitors, identity, ties, power,
readiness and the die's time are as the command left them. A die that is not ready shows no interrupt. (R44, R278,
R456) -/
def Obligations.SavedReportsAreQueuedAtTheEnd : Prop :=
  ∀ d : Die, d.finish.part.emitted = [] ∧ d.finish.powered = d.powered ∧ d.finish.ready = d.ready ∧
    d.finish.spring = d.spring ∧ d.finish.riffle = d.riffle ∧ (∃ o, d.finish.eddy = { d.eddy with oldDeadline := o }) ∧ d.finish.gauge = d.gauge ∧
    d.finish.oxbow = d.oxbow ∧ d.finish.bore = d.bore ∧ d.finish.meander = d.meander ∧ d.finish.mon = d.mon ∧
    d.finish.ident = d.ident ∧ d.finish.hw = d.hw ∧ d.finish.glob = d.glob ∧ d.finish.ties = d.ties ∧
    d.finish.part.time = d.part.time ∧ d.finish.part.disc = d.part.disc ∧ (d.ready = false → d.finish.irq = 0)

/-- For every page of a die that is up: PAGE_ENABLE takes OFF to ENABLING, sets ENABLE_PENDING in DRAINING, raises CMD_ERR
in FAULTED and else changes nothing; PAGE_DRAIN takes ENABLING, ACTIVE and FAULTED to DRAINING with no enable pending
and the drain bound counting from now, clears a pending enable in DRAINING, and in OFF and DRAINING cancels what DRAIN
cancels in every state (log entry 180); ENABLE_DONE takes ENABLING to ACTIVE (GAUGE only once its self-test has
ended); DRAIN_DONE of a page that holds no work takes DRAINING to ENABLING when an enable is pending and to OFF
otherwise. An armed CMD_ERR turns PAGE_ENABLE and PAGE_DRAIN away with CMD_ERR, and either of an unassigned page sets
ACCESS_ERR of GLOBAL. What the page itself starts, stops, discards or cancels there follows (pageStarts, pageStops,
pageDiscards, pageCancels, pageEnds, pageRuns). (R34, R41, R42, R43, R47) -/
def Obligations.DiePageStateInputs : Prop :=
  ∀ (s : State) (l : Lane) (page : Fin 4096), (s.die l).Up →
    let ctl (w : Nat) (f : Die → Die) (d : Die) : Die :=
      if (dieClass page).isNone then d.onPart fun p => p.accessErr 0 (hdrAddr page 4) (BitVec.ofNat 32 w) true
      else if d.part.armedAt page 6 then d.onPart fun p => p.cmdErr page w
      else f d
    DieDoes s (.pageEnable (.die l) page) l (ctl 1 fun d => match d.part.pstate page with
      | .off => (d.onPart fun p => p.modHdr page fun h => { h with state := .enabling }).pageStarts page
      | .draining => d.onPart fun p => p.modHdr page fun h => { h with enablePending := true }
      | .faulted => d.onPart fun p => p.cmdErr page 1
      | .enabling => d
      | .active => d) ∧
    DieDoes s (.pageDrain (.die l) page) l (ctl 2 fun d =>
      let drained := d.onPart fun p => p.modHdr page fun h =>
        { h with state := .draining, enablePending := false, drainSince := p.now }
      match d.part.pstate page with
      | .off => d.pageCancels page
      | .draining => (d.onPart fun p => p.modHdr page fun h => { h with enablePending := false }).pageCancels page
      | .faulted => drained.pageDiscards page
      | .active => drained.pageStops page true
      | .enabling => drained.pageStops page false) ∧
    DieDoes s (.enableDone (.die l) page) l (fun d =>
      if d.part.pstate page = .enabling ∧ ¬ (page.val = 0x18 ∧ d.part.bit 0x18044 1 = true) then
        (d.onPart fun p => p.modHdr page fun h => { h with state := .active }).pageRuns page
      else d) ∧
    DieDoes s (.drainDone (.die l) page) l (fun d =>
      if d.drainIdle page = true ∧ d.part.pstate page = .draining then
        if (d.part.hdr page).enablePending then
          (d.onPart fun p => p.modHdr page fun h => { h with state := .enabling, enablePending := false }).pageStarts page
        else (d.onPart fun p => p.modHdr page fun h => { h with state := .off }).pageEnds page
      else d)

/-- For every page of a ready aggregator: as on a die, but PAGE_ENABLE is refused with CMD_ERR for ETH and CONFLUENCE
without an identity and for TRIB_PORT in the interior role, DRAIN of LEVEE in OFF and DRAINING acts as PLAN_STOP, and
an unassigned page sets ACCESS_ERR of AGG_GLOBAL. (R34, R41, R42, R43, R47, R356, R406, R408) -/
def Obligations.AggregatorPageStateInputs : Prop :=
  ∀ (s : State) (page : Fin 4096), s.agg.phase = .ready →
    let ctl (w : Nat) (f : Agg → Agg) (g : Agg) : Agg :=
      if (aggClass page).isNone then g.onPart fun p => p.accessErr 0 (hdrAddr page 4) (BitVec.ofNat 32 w) true
      else if g.part.armedAt page 6 then g.onPart fun p => p.cmdErr page w
      else f g
    let cancels (g : Agg) : Agg := if page.val = 3 then g.planStop else g
    AggDoes s (.pageEnable .agg page) (ctl 1 fun g =>
      if ((aggClass page = some .eth ∨ aggClass page = some .confluence) ∧ g.nodeValid = false) ∨
          (aggClass page = some .tribPort ∧ g.interior = true) then g.onPart fun p => p.cmdErr page 1
      else match g.part.pstate page with
        | .off => (g.onPart fun p => p.modHdr page fun h => { h with state := .enabling }).pageStarts page
        | .draining => g.onPart fun p => p.modHdr page fun h => { h with enablePending := true }
        | .faulted => g.onPart fun p => p.cmdErr page 1
        | .enabling => g
        | .active => g) ∧
    AggDoes s (.pageDrain .agg page) (ctl 2 fun g =>
      let drained := g.onPart fun p => p.modHdr page fun h =>
        { h with state := .draining, enablePending := false, drainSince := p.now }
      match g.part.pstate page with
      | .off => cancels g
      | .draining => cancels (g.onPart fun p => p.modHdr page fun h => { h with enablePending := false })
      | .faulted => drained.pageDiscards page
      | .active => drained.pageStops page true
      | .enabling => drained.pageStops page false) ∧
    AggDoes s (.enableDone .agg page) (fun g =>
      if g.part.pstate page = .enabling then
        (g.onPart fun p => p.modHdr page fun h => { h with state := .active }).pageRuns page
      else g) ∧
    AggDoes s (.drainDone .agg page) (fun g =>
      if g.drainIdle page = true ∧ g.part.pstate page = .draining then
        if (g.part.hdr page).enablePending then
          (g.onPart fun p => p.modHdr page fun h => { h with state := .enabling, enablePending := false }).pageStarts page
        else (g.onPart fun p => p.modHdr page fun h => { h with state := .off }).pageEnds page
      else g)

/-- DRAIN_TIMEOUT of a page in DRAINING carries time to 10 ms after the drain began, makes the page FAULTED with no enable
pending, and emits the record of detail 0x0A with the ns spent in DRAINING, on S2 for a die; on a die RIFFLE then
gives its windows to Eddy as FEATURES_ABSENT. Of a page in any other state it does nothing. (R42) -/
def Obligations.DrainBoundFaultsThePage : Prop :=
  ∀ (s : State) (l : Lane) (page : Fin 4096),
    let timed (p : Part) : Part :=
      let since := (p.hdr page).drainSince
      let p := p.reach (since + 10000000)
      (p.modHdr page fun h => { h with state := .faulted, enablePending := false }).report (if p.isAgg then .agg else .s2)
        page 0x0A { detail := leBytes 4 (min 0xFFFFFFFF (p.now - since)) }
    ((s.die l).Up → DieDoes s (.drainTimeout (.die l) page) l (fun d =>
      if d.part.pstate page = .draining then
        let d := d.onPart timed
        if page.val = 9 then d.rifAbsentAll.rifFlushAll else d
      else d)) ∧
    (s.agg.phase = .ready → AggDoes s (.drainTimeout .agg page) (fun g =>
      if g.part.pstate page = .draining then g.onPart timed else g))

/-- For every page of a die that is up, and of a ready aggregator: SOFT_CLEAR zeroes ERR_STAT, ERR_FIRST, LATE_COUNT,
EVENT_COUNT and ARMED and every block statistic of the class, and the HIGH_WATER fields and STRICT_LOST accounts of
the pages that have them (on ESTUARY HIGH_WATER restarts from the descriptors in flight); PAGE_LOCK sets LOCK;
ERR_STAT_CLEAR clears the bits written 1 and re-arms ERR_FIRST when none is left; ERR_INJECT_ARM arms the injections
named while LOCK is 0, is refused with ACCESS_ERR while LOCK is 1, and arms none where its byte is 0; an armed
ACCESS_ERR turns it away. Of an unassigned page each sets ACCESS_ERR of the global page. (R34, R37, R38, R39, R46,
R47, R78, R118, R278, R387) -/
def Obligations.HeaderCommandsOfEveryPage : Prop :=
  ∀ (s : State) (l : Lane) (page : Fin 4096) (w : W32),
    let cleared (p : Part) : Part :=
      let p := p.modHdr page fun h => { h with errStat := 0, first := {}, lateCount := 0, eventCount := 0, armed := 0 }
      match pageClass p.isAgg page with
      | none => p
      | some c => ((softWords c).map fun o => page.val * 0x1000 + o).foldl (fun q a => q.wr a 0) p
    let w1c (p : Part) : Part := p.modHdr page fun h =>
      { h with
        errStat := h.errStat &&& ~~~w
        first := if h.errStat &&& ~~~w = 0 then { h.first with valid := false } else h.first }
    let inject (p : Part) : Part :=
      if w.setWidth 8 = 0 then p
      else if (p.hdr page).lock then p.accessErr page (page * 0x1000 + 0x14) w true
      else p.modHdr page fun h => { h with armed := h.armed ||| w.setWidth 8 }
    ((s.die l).Up →
      let known (o : Nat) (x : W32) (f : Die → Die) (d : Die) : Die :=
        if (dieClass page).isNone then d.onPart fun p => p.accessErr 0 (hdrAddr page o) x true else f d
      DieDoes s (.softClear (.die l) page) l (known 4 4 fun d =>
        let d := d.onPart cleared
        if page.val = 1 then d.onPart fun p => p.setFld 0x10C4 8 6 0
        else if page.val = 0x40 then d.onPart fun p => p.setFld 0x40064 16 9 0
        else if page.val = 0x30 then { d with port := { d.port with lostSince := [] } }
        else d) ∧
      DieDoes s (.pageLock (.die l) page) l (known 4 8 fun d =>
        d.onPart fun p => p.modHdr page fun h => { h with lock := true }) ∧
      DieDoes s (.errStatClear (.die l) page w) l (known 0xC w fun d => d.onPart w1c) ∧
      DieDoes s (.errInjectArm (.die l) page w) l (known 0x14 w fun d =>
        d.admitted (hdrAddr page 0x14) w fun d => d.onPart inject)) ∧
    (s.agg.phase = .ready →
      let known (o : Nat) (x : W32) (f : Agg → Agg) (g : Agg) : Agg :=
        if (aggClass page).isNone then g.onPart fun p => p.accessErr 0 (hdrAddr page o) x true else f g
      AggDoes s (.softClear .agg page) (known 4 4 fun g =>
        let g := g.onPart cleared
        if page.val = 4 then (g.onPart fun p => p.setFld 0x4054 16 11 g.inflight).onEst fun e => { e with recDropSince := [] }
        else if page.val = 1 then g.onConf fun c => { c with shedSince := [] }
        else g) ∧
      AggDoes s (.pageLock .agg page) (known 4 8 fun g =>
        g.onPart fun p => p.modHdr page fun h => { h with lock := true }) ∧
      AggDoes s (.errStatClear .agg page w) (known 0xC w fun g => g.onPart w1c) ∧
      AggDoes s (.errInjectArm .agg page w) (known 0x14 w fun g =>
        g.admitted (hdrAddr page 0x14) w fun g => g.onPart inject))

/-- On a die that is up, a read of an unassigned page is answered with 0 and raises ACCESS_ERR of GLOBAL, one of an
unassigned offset of an assigned page raises ACCESS_ERR of that page, and a write does the same with nothing else
changed; on a ready aggregator likewise, with AGG_GLOBAL. At an assigned offset the command is the write, or the near
read, of that offset. (R34, R416) -/
def Obligations.UnassignedAccessesAreRecorded : Prop :=
  ∀ (s : State) (l : Lane) (addr : BitVec 24) (w : W32) (part : PartId),
    exec (.unassignedAccess part addr (some w)) s = exec (.registerWrite part addr w) s ∧
    exec (.unassignedAccess part addr none) s = exec (.wideLowRead part .near addr) s ∧
    ((s.die l).Up → assigned false (addr.toNat / 0x1000) (addr.toNat % 0x1000 / 4 * 4) = false →
      DieDoes s (.unassignedAccess (.die l) addr (some w)) l (fun d => d.onPart fun p =>
        p.accessErr (if (dieClass (addr.toNat / 0x1000)).isNone then 0 else addr.toNat / 0x1000) addr.toNat w true) ∧
      DieDoes s (.unassignedAccess (.die l) addr none) l (fun d => d.onPart fun p =>
        let p := p.accessErr (if (dieClass (addr.toNat / 0x1000)).isNone then 0 else addr.toNat / 0x1000) addr.toNat 0 false
        { p with out := p.out ++ [.regAck 0] })) ∧
    (s.agg.phase = .ready → assigned true (addr.toNat / 0x1000) (addr.toNat % 0x1000 / 4 * 4) = false →
      AggDoes s (.unassignedAccess .agg addr (some w)) (fun g => g.onPart fun p =>
        p.accessErr (if (aggClass (addr.toNat / 0x1000)).isNone then 0 else addr.toNat / 0x1000) addr.toNat w true) ∧
      AggDoes s (.unassignedAccess .agg addr none) (fun g => g.onPart fun p =>
        let p := p.accessErr (if (aggClass (addr.toNat / 0x1000)).isNone then 0 else addr.toNat / 0x1000) addr.toNat 0 false
        { p with out := p.out ++ [.regAck 0] }))

/-- On a die that is up, REGISTER_WRITE of any block register word outside an indirect port: while an ACCESS_ERR injection
of the page is armed it is turned away; when a field it would change is protected (static while the page is not OFF,
locked, or out of range), or its chapter refuses it, it is refused with ACCESS_ERR and nothing else; command bits that
exclude each other are refused with CMD_ERR; otherwise the word takes the fields written (W1C bits written 1 fall,
others keep), the credit of every engine being settled first where SLOT_NS or BUDGET is written, and the register's
own commands follow. The bits the integrator tied away, and the registers of an engine that is not present, do not
act. Of the common header, ERR_MASK and DEADLINE_NS take the value in range and are refused with ACCESS_ERR while
locked or out of range, and the read-only words ignore the write; a new deadline of EDDY ends the one kept for windows
before a schedule switch. Of an indirect port, IND_ADDR and IND_CTL take the bits the port has, and a lower half held
for another word is dropped. (R6, R38, R47, R87, R176, R196, R421) -/
def Obligations.RegisterWritesStoreTheirFields : Prop :=
  ∀ (s : State) (l : Lane) (addr : BitVec 24) (w : W32), (s.die l).Up → addr.toNat % 4 = 0 →
    let a := addr.toNat
    let page := a / 0x1000
    (∀ (r : RegSpec) (i : Nat), 0x40 ≤ a % 0x1000 → specOf false page (a % 0x1000) = some (r, i) →
      (∀ port : Nat, indPort page = some port → a ≠ port ∧ a ≠ port + 4 ∧ a ≠ port + 8) →
      DieDoes s (.registerWrite (.die l) addr w) l (fun d => d.admitted a w fun d =>
        match d.maskWrite a w with
        | none => d
        | some x =>
          let old := d.part.num a
          let lock := (d.part.hdr page).lock && !(a == 0x8068 || a == 0x8070)
          if r.fields.any (fieldRefused lock (d.staticFixed a) old x.toNat) || d.writeRefused a old (mergeWord r old x.toNat) x then
            d.onPart fun p => p.accessErr page a x true
          else if (a = 0x104C ∧ wbit x 1 = true ∧ wbit x 2 = true) ∨ (a = 0x8040 ∧ wbit x 3 = true ∧ wbit x 4 = true) then
            d.onPart fun p => p.cmdErrOp page x.toNat (if page = 8 then 3 else 0)
          else
            let d := if a = 0x18048 ∨ a = 0x18088 then d.settleCredit else d
            let d := if old = mergeWord r old x.toNat then d else d.onPart fun p => p.setNum a (mergeWord r old x.toNat)
            d.writeActs a old x)) ∧
    (a % 0x1000 < 0x40 → a % 0x1000 ≠ 4 → (dieClass page).isSome = true →
      DieDoes s (.registerWrite (.die l) addr w) l (fun d => d.admitted a w fun d =>
        let e := d.onPart fun p =>
          let h := p.hdr page
          let refuse : Part := p.accessErr page a w true
          if a % 0x1000 = 0xC then p.clearErr page w
          else if a % 0x1000 = 0x10 then
            if w &&& 0xFFFF00FF = h.errMask then p else if h.lock then refuse
            else p.modHdr page fun h => { h with errMask := w &&& 0xFFFF00FF }
          else if a % 0x1000 = 0x14 then
            if w.setWidth 8 = 0 then p else if h.lock then refuse
            else p.modHdr page fun h => { h with armed := h.armed ||| w.setWidth 8 }
          else if a % 0x1000 = 0x1C then
            if w = h.deadline then p
            else if h.lock || !deadlineOk p.isAgg page w.toNat then refuse else p.modHdr page fun h => { h with deadline := w }
          else p
        if a = 0x1001C ∧ (e.part.hdr 0x10).deadline ≠ (d.part.hdr 0x10).deadline then
          { e with eddy := { e.eddy with oldDeadline := none } }
        else e)) ∧
    (∀ port : Nat, indPort page = some port → a = port ∨ a = port + 8 →
      DieDoes s (.registerWrite (.die l) addr w) l (fun d => d.admitted a w fun d => d.onPart fun p =>
        (p.wr a (w &&& if a = port then 0xFFFFFFFC else 0x0000FF01)).indMoved page port))

/-- On a ready aggregator, REGISTER_WRITE of any block register word outside an indirect port: while an ACCESS_ERR
injection of the page is armed it is turned away; when a field it would change is protected, an RWL field is loosened,
or its chapter refuses it, it is refused with ACCESS_ERR and nothing else; otherwise the word takes the fields written
and the register's own commands follow (a DIE_STATE word only commands, and REQ_TAIL and a doorbell are taken as they
are written). Of the common header and of an indirect port as on a die. (R6, R38, R47, R87, R306, R349, R366) -/
def Obligations.BarWritesStoreTheirFields : Prop :=
  ∀ (s : State) (addr : BitVec 24) (w : W32), s.agg.phase = .ready → addr.toNat % 4 = 0 →
    let a := addr.toNat
    let page := a / 0x1000
    let off := a % 0x1000
    (∀ (r : RegSpec) (i : Nat), 0x40 ≤ off → specOf true page off = some (r, i) →
      (∀ port : Nat, aggPort page = some port → a ≠ port ∧ a ≠ port + 4 ∧ a ≠ port + 8) →
      AggDoes s (.registerWrite .agg addr w) (fun g => g.admitted a w fun g =>
        let old := g.part.num a
        let lock := (g.part.hdr page).lock && !(a == 0x3068)
        if page = 1 ∧ 0x100 ≤ off ∧ off < 0x140 then g.dieStateWrite ((off - 0x100) / 4) w
        else if r.fields.any (fieldRefused lock (g.staticFixed a) old w.toNat) || r.fields.any (g.loosens a old w) ||
            g.writeRefused a old (mergeWord r old w.toNat) then
          g.onPart fun p => p.accessErr page a w true
        else if page = 2 ∧ 0xC0 ≤ off ∧ off < 0x140 ∧ off % 0x20 = 4 then g.reqTail ((off - 0xC0) / 0x20) w
        else if (0x40 ≤ page ∧ page < 0x80) ∧ off = 0x4C then g.doorbell (page - 0x40) w
        else (if old = mergeWord r old w.toNat then g else g.onPart fun p => p.setNum a (mergeWord r old w.toNat)).writeActs
          a old w)) ∧
    (off < 0x40 → off ≠ 4 → (aggClass page).isSome = true →
      AggDoes s (.registerWrite .agg addr w) (fun g => g.admitted a w fun g => g.onPart fun p =>
        let h := p.hdr page
        let refuse : Part := p.accessErr page a w true
        if off = 0xC then p.clearErr page w
        else if off = 0x10 then
          if w &&& 0xFFFF00FF = h.errMask then p else if h.lock then refuse
          else p.modHdr page fun h => { h with errMask := w &&& 0xFFFF00FF }
        else if off = 0x14 then
          if w.setWidth 8 = 0 then p else if h.lock then refuse
          else p.modHdr page fun h => { h with armed := h.armed ||| w.setWidth 8 }
        else if off = 0x1C then
          if w = h.deadline then p
          else if h.lock || !deadlineOk p.isAgg page w.toNat then refuse else p.modHdr page fun h => { h with deadline := w }
        else p)) ∧
    (∀ port : Nat, aggPort page = some port → a = port ∨ a = port + 8 →
      AggDoes s (.registerWrite .agg addr w) (fun g => g.admitted a w fun g => g.onPart fun p =>
        (p.wr a (w &&& if a = port then 0xFFFFFFFC else 0x0000FF01)).indMoved page port))

/-- On a die that is up, WIDE_LOW_READ and HIGH_WORD_READ of any assigned word but IND_DATA: a word of the common header
is answered as it is; a low word is answered and its high word kept in the page's shadow for the source (and the
fraction word for the HEADWATER time); a high word is answered from the shadow when the shadow is of its register, and
from the register itself otherwise, and changes no shadow, and so is the fraction word of the HEADWATER time; any
other word is answered as it is. While an ACCESS_ERR injection of the page is armed a read of a block register word is
answered with 0 and ACCESS_ERR. On a ready aggregator the same holds of BAR0, where a DRAM word that counts unstated
traffic is a free value. (R34, R40, R47, R58) -/
def Obligations.WideReadsLatchTheirShadow : Prop :=
  ∀ (s : State) (l : Lane) (src : Src) (addr : BitVec 24),
    let a := addr.toNat / 4 * 4
    let page := addr.toNat / 0x1000
    let off := a % 0x1000
    let answer (w : W32) (p : Part) : Part := { p with out := p.out ++ [.regAck w] }
    let read (view : Nat → W32) (time : Nat) (isAgg : Bool) (p : Part) : Part :=
      let sh := (p.hdr page).shadow src
      if p.accessFault page off false then answer 0 (p.accessErr page addr.toNat 0 false)
      else if off < 0x40 then answer (p.hdrWord page off) p
      else
        let wide := match specOf isAgg page off with | some (r, _) => r.wide | none => .one
        if wide = .low then answer (view a) (p.modHdr page fun h => h.setShadow src
          { low := some a, hi := view (a + 4), frac := if a = time then view (a + 8) else 0 })
        else if wide = .high then answer (if sh.low = some (a - 4) then sh.hi else view a) p
        else answer (if a = time + 8 ∧ sh.low = some time then sh.frac else view a) p
    ((s.die l).Up → (s.die l).part.isAgg = false → assigned false page off = true → indPort page ≠ some (a - 4) →
      let f (d : Die) : Die := { d with part := read d.blockWord 0x1040 false d.part }
      DieDoes s (.wideLowRead (.die l) src addr) l f ∧ DieDoes s (.highWordRead (.die l) src addr) l f) ∧
    (s.agg.phase = .ready → s.agg.part.isAgg = true → assigned true page off = true → aggPort page ≠ some (a - 4) →
      let f (g : Agg) : Agg := g.onPart fun p =>
        let q := read g.blockWord 0x4124 true p
        if page = 0x20 ∧ 0x40 ≤ off ∧ p.accessFault page off false = false then { q with fresh := q.fresh + 20 } else q
      AggDoes s (.wideLowRead .agg src addr) f ∧ AggDoes s (.highWordRead .agg src addr) f)

/-- On a die that is up, and on a ready aggregator, for every page with an indirect port: IND_DATA_READ of an address
inside the memory SELECT names answers the word where the check passes or corrects it, with status 0 or 1, and 0 with
status 2 and the chapter's consequence of UE where it does not, and the address advances; IND_DATA_WRITE keeps a lower
half until the upper half of the same 64-bit word commits both, an upper half with none held being merged with the
lower half read and checked; while the page is locked or the word in use IN_USE is set and nothing written; outside
the memory, or with no memory selected, status 4 alone. An armed ACCESS_ERR turns the access away. A page without a
port takes neither command. (R34, R47, R49, R50, R104, R459) -/
def Obligations.IndirectPortsReadAndWriteWords : Prop :=
  ∀ (s : State) (l : Lane) (page : Fin 4096) (src : Src) (w : W32) (ecc : Ecc),
    let answer (x : W32) (p : Part) : Part := { p with out := p.out ++ [.regAck x] }
    let passed (p : Part) (port st : Nat) : Part := (p.indStat port st).indAdvance page port
    ((s.die l).Up →
      let reached (d : Die) (port : Nat) : Option Nat :=
        match indSize page (d.part.fld (port + 8) 8 8) with
        | none => none
        | some n => if n ≤ d.part.num port / 4 * 4 then none else some (d.part.num port / 4 * 4)
      DieDoes s (.indDataRead (.die l) page src ecc) l (fun d => match indPort page with
        | none => d
        | some port =>
          let sel := d.part.fld (port + 8) 8 8
          if d.part.accessFault page ((port + 4) % 0x1000) false then
            d.onPart fun p => answer 0 (p.accessErr page (port + 4) 0 false)
          else match reached d port with
          | none => d.onPart fun p => answer 0 (p.indStat port 4)
          | some a =>
            let r := { d.part with fresh := d.part.fresh + 1 }.eccRead page (a / 8) (memIdent page sel a) ecc (portOp page)
            let e := { d with part := r.2 }
            match r.1 with
            | .ok => e.onPart fun p => answer (d.indWord page sel a) (passed p port 0)
            | .ce _ => e.onPart fun p => answer (d.indWord page sel a) (passed p port 1)
            | .ue => (e.indUe page sel a).onPart fun p => answer 0 (passed p port 2)) ∧
      DieDoes s (.indDataWrite (.die l) page w ecc) l (fun d => match indPort page with
        | none => d
        | some port =>
          let commit (d : Die) (sel a : Nat) (lo : W32) (st : Nat) : Die :=
            (d.indStore page sel (a - 4) (leBytes 4 lo.toNat ++ leBytes 4 w.toNat)).onPart fun p =>
              passed (p.modHdr page fun h => { h with heldLower := none }) port st
          d.admitted (port + 4) w fun d =>
            let sel := d.part.fld (port + 8) 8 8
            if (d.part.hdr page).lock then d.onPart fun p => passed p port 8
            else match reached d port with
            | none => d.onPart fun p => p.indStat port 4
            | some a =>
              if d.indInUse page sel (a / 8 * 8) then d.onPart fun p => passed p port 8
              else if a % 8 = 0 then
                d.onPart fun p => passed (p.modHdr page fun h => { h with heldLower := some (indKey sel a, w) }) port 0
              else match (d.part.hdr page).heldLower with
                | some k => commit d sel a k.2 0
                | none =>
                  let r := d.part.eccRead page (a / 8) (memIdent page sel a) ecc (portOp page)
                  let e := { d with part := r.2 }
                  match r.1 with
                  | .ok => commit e sel a (e.indWord page sel (a - 4)) 0
                  | .ce _ => commit e sel a (e.indWord page sel (a - 4)) 1
                  | .ue => (e.indUe page sel a).onPart fun p => passed p port 2)) ∧
    (s.agg.phase = .ready →
      let reached (g : Agg) (port : Nat) : Option Nat :=
        match aggIndSize page (g.part.fld (port + 8) 8 8) with
        | none => none
        | some n => if n ≤ g.part.num port / 4 * 4 then none else some (g.part.num port / 4 * 4)
      AggDoes s (.indDataRead .agg page src ecc) (fun g => match aggPort page with
        | none => g
        | some port =>
          let sel := g.part.fld (port + 8) 8 8
          if g.part.accessFault page ((port + 4) % 0x1000) false then
            g.onPart fun p => answer 0 (p.accessErr page (port + 4) 0 false)
          else match reached g port with
          | none => g.onPart fun p => answer 0 (p.indStat port 4)
          | some a =>
            let r := g.part.eccRead page (a / 8) sel ecc 0
            let e := { g with part := { r.2 with fresh := r.2.fresh + 1 } }
            match r.1 with
            | .ok => e.onPart fun p => answer (g.indWord page sel a) (passed p port 0)
            | .ce _ => e.onPart fun p => answer (g.indWord page sel a) (passed p port 1)
            | .ue => (e.indUe page sel).onPart fun p => answer 0 (passed p port 2)) ∧
      AggDoes s (.indDataWrite .agg page w ecc) (fun g => match aggPort page with
        | none => g
        | some port =>
          let commit (g : Agg) (sel a : Nat) (lo : W32) (st : Nat) : Agg :=
            (g.indStore page sel (a - 4) (leBytes 4 lo.toNat ++ leBytes 4 w.toNat)).onPart fun p =>
              passed (p.modHdr page fun h => { h with heldLower := none }) port st
          g.admitted (port + 4) w fun g =>
            let sel := g.part.fld (port + 8) 8 8
            if (g.part.hdr page).lock then g.onPart fun p => passed p port 8
            else match reached g port with
            | none => g.onPart fun p => p.indStat port 4
            | some a =>
              if g.indInUse page sel (a / 8 * 8) then g.onPart fun p => passed p port 8
              else if a % 8 = 0 then
                g.onPart fun p => passed (p.modHdr page fun h => { h with heldLower := some (indKey sel a, w) }) port 0
              else match (g.part.hdr page).heldLower with
                | some k => commit g sel a k.2 0
                | none =>
                  let r := g.part.eccRead page (a / 8) sel ecc 0
                  let e := { g with part := r.2 }
                  match r.1 with
                  | .ok => commit e sel a (e.indWord page sel (a - 4)) 0
                  | .ce _ => commit e sel a (e.indWord page sel (a - 4)) 1
                  | .ue => (e.indUe page sel).onPart fun p => passed p port 2))

/-- For every state and lane: DIE_POWER_UP of a die without power gives it the reset state of its slot and ties, and of a
powered die changes nothing; DIE_POWER_LOSS takes every bit of state and leaves it without power; DIE_READY of a
powered die that is not ready makes it ready, with the pages of the table at ready ACTIVE, time at 0, the lane
enabled, window 0 open, every identity target to be read, and REF_LOSS applied when no reference came within 950 us;
EARLY_ACCESS before ready is acknowledged with 0 and sets ID_STAT.EARLY_ACCESS; from ready on neither has anything
left to do. (R391, R392, R393, R413, R414, R54) -/
def Obligations.PowerAndReadinessOfADie : Prop :=
  ∀ (s : State) (l : Lane) (slot : Fin 16) (ties : Ties) (refAt : Option Nat),
    exec (.diePowerUp l slot ties) s =
      .next (s.onDie l fun d => if d.powered then d else (Die.reset slot ties).finish) ∧
    exec (.diePowerLoss l) s =
      .next (s.onDie l fun d => ({ Die.reset d.part.slot d.ties with powered := false }).finish) ∧
    ((s.die l).powered = true →
      DieDoes s (.earlyAccess l) l (fun d =>
        if d.ready then d else d.onPart fun p => { p.setBit 0x48 9 true with out := p.out ++ [.regAck 0] }) ∧
      DieDoes s (.dieReady l refAt) l (fun d =>
        if d.ready then d
        else
          let d := { d with ready := true }
          let d := d.onPart fun p =>
            readyPages.foldl (fun p g => p.modHdr g fun h => { h with state := .active }) { p with time := 0 }
          let d := if ∀ r ∈ refAt, 950000 < r then d.refLoss else d
          let d := d.hwActive.onLane fun p s => linkEnable p s none
          (d.openWindow {}).identBegin [0, 1, 2, 3, 4, 5, 6, 7, 8]))

/-- For every powered die that is not ready: a register write, a page command, a write of ERR_STAT or ERR_INJECT, a wide
read and an access to a page with an indirect port each leave what EARLY_ACCESS leaves (acknowledged with 0,
ID_STAT.EARLY_ACCESS set), whatever the address and the value. (R392) -/
def Obligations.BeforeReadyTheRegisterPortDoesNothing : Prop :=
  ∀ (s : State) (l : Lane) (page : Fin 4096) (addr : BitVec 24) (w : W32) (src : Src) (o : Option W32) (ecc : Ecc),
    (s.die l).powered = true → (s.die l).ready = false →
    let t := s.onDie l fun d => ((d.begin_).early).finish
    exec (.registerWrite (.die l) addr w) s = .next t ∧ exec (.pageEnable (.die l) page) s = .next t ∧
      exec (.pageDrain (.die l) page) s = .next t ∧ exec (.softClear (.die l) page) s = .next t ∧
      exec (.pageLock (.die l) page) s = .next t ∧ exec (.errStatClear (.die l) page w) s = .next t ∧
      exec (.errInjectArm (.die l) page w) s = .next t ∧ exec (.wideLowRead (.die l) src addr) s = .next t ∧
      exec (.highWordRead (.die l) src addr) s = .next t ∧ exec (.unassignedAccess (.die l) addr o) s = .next t ∧
      ((indPort page).isSome = true → exec (.indDataRead (.die l) page src ecc) s = .next t ∧
        exec (.indDataWrite (.die l) page w ecc) s = .next t)

/-- For every Rill counter and every number of events: when the events bring the sum to 0xFFFF_FFFF_FFFF or beyond, the
counter holds exactly that value with SAT set; once SAT is set, no event changes the counter; below it the sum
advances by the events and SAT stays clear; so a counter with SAT set never holds more than the events that reached
it. (R10) -/
def Obligations.SaturatingCountersStop : Prop :=
  ∀ (c : Counter) (n m : Nat),
    (c.sat = false → 0xFFFFFFFFFFFF ≤ c.sum + n → (c.add n).sum = 0xFFFFFFFFFFFF ∧ (c.add n).sat = true ∧
      (c.add n).sum ≤ c.sum + n) ∧
    (c.sat = true → c.add n = c) ∧
    (c.sat = false → c.sum + n < 0xFFFFFFFFFFFF → (c.add n).sum = c.sum + n ∧ (c.add n).sat = false) ∧
    ((c.add n).sat = true → (c.add n).add m = c.add n)

/-- For every discipline machine whose trim, integral and kept trims lie within 0x29F16B: after a measurement, MISS3,
HOLD_TIMEOUT, loss of the reference and its return, they still do. (R64, R62, R61) -/
def Obligations.TrimStaysWithin200ppm : Prop :=
  ∀ (x : Disc) (c : DiscCfg) (o : Int) (now : Nat),
    let Within (y : Disc) : Prop := y.trim.natAbs ≤ 0x29F16B ∧ y.integ.natAbs ≤ 0x29F16B ∧ ∀ t ∈ y.trims, t.natAbs ≤ 0x29F16B
    Within x → Within (x.measure c o now).1 ∧ Within (x.miss3 c now).1 ∧ Within x.holdTimeout.1 ∧
      Within (x.lose c now).1 ∧ Within x.regain

/-- For every discipline machine and measurement: the counter is stepped exactly in FREE, or with RESTEP armed and an
offset beyond JUMP_LIMIT; a machine that is not in FREE and not armed refuses an offset beyond JUMP_LIMIT and is in
HOLDOVER after it; LOCKED is entered only from LOCKING with the eighth consecutive offset within LOCK_NS, or from
HOLDOVER while synchronised; UNSYNCED falls only on that entry from LOCKING. (R61, R62, R63) -/
def Obligations.StepsComeOnlyFromFreeOrArmed : Prop :=
  ∀ (x : Disc) (c : DiscCfg) (o : Int) (now : Nat),
    let (y, a) := x.measure c o now
    (a.step.isSome = true ↔ x.state = .free ∨ (x.armed = true ∧ c.jump * 65536 < o.natAbs)) ∧
    (x.state ≠ .free → x.armed = false → c.jump * 65536 < o.natAbs → a.refused = true ∧ y.state = .holdover) ∧
    (y.state = .locked → x.state ≠ .locked →
      (x.state = .locking ∧ 7 ≤ x.lockRun ∧ o.natAbs ≤ c.lock * 65536) ∨ (x.state = .holdover ∧ x.unsynced = false)) ∧
    (x.unsynced = true → y.unsynced = false → x.state = .locking ∧ 7 ≤ x.lockRun ∧ y.state = .locked)

/-- For every state and every die that is up: REF_LOSS, unless already lost, raises REF_LOSS with the time and gives the
input to the table, the trim holding while the page is not ACTIVE; REF_RETURN ends the loss; EXCHANGE_INCOMPLETE of an
ACTIVE page advances time to the next exchange start, MISS_COUNT and the run of misses, and every third is MISS3;
HOLD_TIMEOUT of an ACTIVE page in HOLDOVER applies its input after HOLD_MAX; otherwise neither does anything.
ARM_RESTEP and DISARM set and clear the arming; SERVO_EN_WRITE sets the bit and, where that changes it, hands the rate
over, and is refused with ACCESS_ERR where it would change a locked page; an armed ACCESS_ERR turns each of the three
away. (R38, R47, R59, R61, R63, R64, R65, R77) -/
def Obligations.DisciplineInputsOfADie : Prop :=
  ∀ (s : State) (l : Lane), (s.die l).Up →
    DieDoes s (.refLoss l) l (fun d =>
      if d.part.disc.refLoss then d
      else
        let (y, a) := d.part.disc.lose d.discCfg d.now
        let y := if d.part.active 1 then y else { y with trim := d.part.disc.trim }
        (d.onPart fun p => { p with disc := y }.raise 1 19 { detail := leBytes 8 p.now }).discDo y a 0 []) ∧
    DieDoes s (.refReturn l) l (fun d => d.onPart fun p => { p with disc := { p.disc with refLoss := false } }) ∧
    DieDoes s (.exchangeIncomplete l) l (fun d =>
      if d.part.active 1 = false then d
      else
        let x := d.part.disc
        let d := d.onPart fun p =>
          { (p.reach (x.countFrom + 1500000 + 1000000 * x.missRun)).inc 0x1084 with disc := { x with missRun := x.missRun + 1 } }
        if (x.missRun + 1) % 3 = 0 then
          let (y, a) := d.part.disc.miss3 d.discCfg d.now
          d.discDo y a 0 []
        else d) ∧
    DieDoes s (.holdTimeout l) l (fun d =>
      if d.part.active 1 = true ∧ d.part.disc.state = .holdover then
        let d := d.onPart fun p => p.reach (p.disc.holdSince + p.num 0x106C)
        let (y, a) := d.part.disc.holdTimeout
        d.discDo y a 0 []
      else d) ∧
    DieDoes s (.armRestep l) l (fun d => d.commanded 0x104C 2 fun d =>
      d.onPart fun p => { p with disc := { p.disc with armed := true } }) ∧
    DieDoes s (.disarm l) l (fun d => d.commanded 0x104C 4 fun d =>
      d.onPart fun p => { p with disc := { p.disc with armed := false } }) ∧
    (∀ on : Bool, swf (resetWord (s.die l).part.isAgg) (s.die l).part.regs = true →
      DieDoes s (.servoEnWrite l on) l (fun d => d.admitted 0x104C (BitVec.ofNat 32 (b2n on)) fun d =>
        if d.part.bit 0x104C 0 = on then d
        else if (d.part.hdr 1).lock then d.onPart fun p => p.accessErr 1 0x104C (BitVec.ofNat 32 (b2n on)) true
        else (d.onPart fun p => p.setBit 0x104C 0 on).servoWrite on))

/-- For every ready aggregator: EXCHANGE_START at the next 1 ms multiple sends TIME_SYNC of the next exchange on every
lane, and TIME_DELAY of the exchange under way that stands is answered with TIME_RESP of t4. For every die that is up
with HEADWATER ACTIVE: TIME_SYNC that stands keeps t1, c_down and the arrival and sends TIME_DELAY; TIME_RESP of the
open exchange whose TIME_DELAY has gone out ends it and, unless the aggregator has started a later exchange, gives
offset and delay in 64-bit arithmetic, and the offset is a measurement unless the reference is lost; any other
TIME_RESP only counts as a cell. LAST_DELAY holds a negative delay as 0 and one beyond 32 bits as all ones, which is
the model's choice (log entry 181). (R59, R60, R77, R271, R273) -/
def Obligations.TimeExchangeBetweenAggregatorAndDie : Prop :=
  ∀ (s : State) (l : Lane) (h : CellHdr) (exch t1 cDown t4 : Nat) (ss : List MonSample),
    (s.agg.phase = .ready →
      AggDoes s .exchangeStart (fun g =>
        let g := g.reach ((g.now + 999999) / 1000000 * 1000000)
        let x := g.exch
        let g := { g with exch := (x + 1) % 4294967296 }
        (List.range 16).foldl (fun g l => g.onLane l fun p s => putS0 p s (some l)
          { typ := 2, len := 24, body := .timeSync x 0, enq := p.t }) g) ∧
      AggDoes s (.timeDelay l h exch) (fun g => Agg.received (g.cellIn l h 3 (some 24)) fun g =>
        if (exch + 1) % 4294967296 = g.exch then
          g.onLane l fun p s => putS0 p s (some l)
            { typ := 4, len := 24, body := .timeResp exch (p.t / 65536), enq := p.t }
        else g)) ∧
    ((s.die l).Up →
      DieDoes s (.timeSync l h exch t1 cDown) l (fun d => Die.received (d.cellIn h 2 (some 24)) fun d =>
        if d.part.active 1 = false then d
        else
          let d := d.onHw fun h =>
            { h with exch := some { seq := exch, t1 := t1, cDown := cDown, t2 := d.part.time.toNat / 65536 } }
          let (p, s) := putS0 d.part d.port none { typ := 3, len := 24, body := .timeDelay exch 0, enq := d.part.t }
          { d with part := p, port := s }) ∧
      DieDoes s (.timeResp l h exch ⟨t4, ss⟩) l (fun d => Die.received (d.cellIn h 4 (some 24)) fun d =>
        if d.part.active 1 = false then d
        else match d.hw.exch with
          | none => d
          | some x => match x.up with
            | none => d
            | some (t3, cUp) =>
              if x.seq ≠ exch then d
              else if s.agg.exch ≠ (exch + 1) % 4294967296 then d.onHw fun h => { h with exch := none }
              else
                let down := wrap64 ((x.t2 : Int) - x.t1 - x.cDown)
                let up := wrap64 ((t4 : Int) - t3 - cUp)
                let o := wrap64 (sar (wrap64 (up - down)) 1 + signed (d.part.fld 0x1074 0 16) 16 * 256)
                let dl := sar (wrap64 (up + down)) 1
                let d := d.onHw fun h => { h with exch := none }
                let d := d.onPart fun p =>
                  let p := (p.setNum 0x1078 (twos (clampAbs (sar o 12) 0x7FFFFFFF) 32)).setNum 0x107C
                    (min 0xFFFFFFFF (sar dl 12).toNat)
                  { p with disc := { p.disc with missRun := 0, countFrom := x.t2 / 65536 } }
                if d.part.disc.refLoss then d
                else
                  let (y, a) := d.part.disc.measure d.discCfg o d.now
                  d.discDo y a o ss))

/-- For every die that is up and every word: GDID_SET of 0xFFFF_FFFF makes an assigned identity fall at the next boundary
and cancels a pending first one; a value below 2^18 on an unassigned die becomes its GDID at the next boundary; every
other write is refused with ACCESS_ERR, and so is any while an ACCESS_ERR is armed. At a boundary a pending change
becomes GLOBAL_GDID with attention pending. That the record of the window closing there carries the new identity is
the choice of log entry 174. (R38, R396, R68) -/
def Obligations.GdidAssignmentTakesEffectAtTheBoundary : Prop :=
  (∀ (s : State) (l : Lane) (w : W32), (s.die l).Up →
    DieDoes s (.gdidSet l w) l (fun d => d.admitted 0x44 w fun d =>
      let assigned := d.part.num 0x40 ≠ 0xFFFFFFFF
      if w = 0xFFFFFFFF then { d with glob := { d.glob with gdidNext := if assigned then some 0xFFFFFFFF else none } }
      else if w.toNat < 0x40000 ∧ ¬ assigned then { d with glob := { d.glob with gdidNext := some w.toNat } }
      else d.onPart fun p => p.accessErr 0 0x44 w true)) ∧
  (∀ (d : Die) (g : Nat), swf (resetWord d.part.isAgg) d.part.regs = true → d.glob.gdidNext = some g → g < 4294967296 →
    d.gdidChange.glob.gdidNext = none ∧ d.gdidChange.part.num 0x40 = g ∧ d.gdidChange.part.bit 0x50 2 = true) ∧
  (∀ d : Die, d.glob.gdidNext = none → d.gdidChange = d)

/-- For every die that is up: WINDOW_BOUNDARY advances time to the boundary of the next index, closes the open window with
its length and opens window index + 1 there, taking an armed switch at its boundary (or before, when a step passed
it); SWITCH_ARM of a future boundary on the grid of the present schedule, with a length in range, sets SWITCH_PENDING
and is refused with ACCESS_ERR otherwise; TRIGGER_FIRE advances time to the first due event of the pool, takes it out
and executes it on time, and does nothing while the pool is empty. (R38, R68, R69, R70, R71, R72, R78) -/
def Obligations.WindowsAndTheTriggerPool : Prop :=
  ∀ (s : State) (l : Lane) (ss : List MonSample), (s.die l).Up →
    DieDoes s (.windowBoundary l ss) l (fun d =>
      let k := d.spring.window.index + 1
      let d := if d.switchPending && decide (d.part.num64 0x10A8 < d.boundaryOf k) then d.switchSchedule else d
      let e := d.boundaryOf k
      let d := d.onPart fun p => p.reach e
      d.turnWindow ((e * 65536 - d.spring.window.countFrom - d.spring.window.lost) / 65536) d.spring.window.short ss
        (fun d => if d.switchPending && decide (d.part.num64 0x10A8 ≤ e) then d.switchSchedule else d)
        (fun _ => { index := k, start := e, countFrom := e * 65536 })) ∧
    DieDoes s (.switchArm l) l (fun d => d.commanded 0x10B8 1 fun d =>
      let nb := d.part.num64 0x10A8
      let len := d.part.num 0x109C
      if d.part.bit 0x10B8 1 = false ∧ d.part.num64 0x10A0 ≤ nb ∧ (nb - d.part.num64 0x10A0) % max 1 (d.part.num 0x1098) = 0 ∧
          d.part.time.toNat + 1000000 * 4294967296 ≤ nb * 4294967296 ∧ 1000 ≤ len ∧ len ≤ 10000000
      then d.onPart fun p => p.setBit 0x10B8 1 true
      else d.onPart fun p => p.accessErr 1 0x10B8 (p.kept false 0x10B8 ||| 1) true) ∧
    DieDoes s (.triggerFire l) l (fun d => match firstDue d.hw.pool with
      | none => d
      | some e => ((d.onPart fun p => p.reach e.ev.exec).onHw fun h => { h with pool := h.pool.erase e }).execEvent e.ev false 0)

/-- For every die that is up and every ready aggregator: DEADLINE_MISS of a stage with an unmarked item advances time to
its deadline and marks the first one missed; STAGE_HANG of a page other than TRIB, with an item in the stage, advances
time to HANG_MULT deadlines, records it and faults the page (on the aggregator with the reset value of HANG_MULT, log
entry 40); of a stage that holds no such item neither does anything. ADAPTER_TIMEOUT counts, records group, port and
phase, and does what the abandoned exchange asks: HALT_FAIL of the core, the gate response to be presented again, the
probe lost; BASE_CLEAR clears VALID and the learned counts of every baseline cell and keeps the baselines. (R38, R85,
R86, R89, R92, R96, R99, R265, R198, R190) -/
def Obligations.DeadlinesHangsAndAdapters : Prop :=
  ∀ (s : State) (l : Lane) (page : Fin 4096) (stage unit : Nat),
    let missed (p : Part) : Part := match p.stages.find? fun i => i.named page stage unit && !i.missed with
      | none => p
      | some i => (p.reach (i.start + i.deadline)).stageMiss page stage unit
    ((s.die l).Up → ∀ (group : Fin 5) (port phase : Nat) (what : Abandoned),
      DieDoes s (.deadlineMiss (.die l) page stage unit) l (fun d => d.onPart missed) ∧
      DieDoes s (.stageHang (.die l) page stage unit) l (fun d =>
        if page.val = 0x31 then d
        else match d.part.stageFind page stage unit with
        | none => d
        | some i =>
          let t := d.onPart fun p => (p.reach (i.start + i.deadline * p.fld 0x204C 0 8)).stageHang page stage unit
          if d.part.pstate page ≠ .faulted ∧ t.part.pstate page = .faulted then t.pageFaults page (d.part.pstate page == .active)
          else t) ∧
      DieDoes s (.adapterTimeout l group port phase what) l (fun d =>
        let d := d.onPart fun p => (p.inc 0x2058).raise 2 18
          { detail := leBytes 1 group ++ leBytes 2 port ++ leBytes 1 phase }
        match what with
        | .halt k => d.onPart fun p => p.raise (corePage k) 17
            { unit := k, opCode := 2, detail := leBytes 1 (p.fld (coreAddr k + 0x44) 3 3) ++ [2] }
        | .gateResponse => d.onOx fun o =>
            if o.resp.isEmpty || o.abandoned.isSome then o else { o with abandoned := some d.now }
        | .probe tag => match d.gauge.probes.find? fun w => w.tag == tag with
          | some w =>
            let d := d.probeLands w true
            if d.probeHeld w.engine then d else d.noResult w
          | none => d
        | .other => d) ∧
      DieDoes s (.baseClear l) l (fun d => d.commanded 0x2040 4 fun d => d.onMon fun m =>
        { m with acc := [], base := (List.range 1024).foldl (fun b c =>
            let w := Mem.rdLE b (4 * c) 4
            if w < 65536 then b else Mem.wrLE b (4 * c) 4 (w % 65536)) m.base })) ∧
    (s.agg.phase = .ready →
      AggDoes s (.deadlineMiss .agg page stage unit) (fun g => g.onPart missed) ∧
      AggDoes s (.stageHang .agg page stage unit) (fun g => match g.part.stageFind page stage unit with
        | none => g
        | some i =>
          let t := (g.reach (i.start + i.deadline * bitsOf (resetWord false 0x204C).toNat 0 8)).onPart fun p =>
            p.stageHang page stage unit
          if g.part.active page && !t.part.active page then t.pageLeaves page else t))

/-- For every die that is up: TAP_INC adds each increment to its own counter of the tap (a counter whose tap does not
count is untouched, one that saturates raises SAT once, and an armed SAT saturates the next it reaches); TAP_CLR sets
CLR_PENDING of the tap and no counter moves before the boundary; HP_SAMPLE advances time to the next sampling instant
of the open window, presents each named input and samples every valid one into the running reductions, and only
presents the inputs where no such instant lies before the boundary; SPRING_CONFIG_WRITE is the register write of its
address, and of a SPRING configuration word stores its fields where nothing refuses it (ACCESS_ERR otherwise), the
configuration in force staying as it is until the next boundary. (R20, R38, R47, R101, R103, R104, R105, R112, R121,
R418) -/
def Obligations.CountersAndHealthPoints : Prop :=
  ∀ (s : State) (l : Lane) (tap : Fin 2048) (incs : List (Fin 16)) (vals : List (Nat × W16 × Bool)) (addr : BitVec 24) (w : W32)
      (r : RegSpec) (i : Nat), (s.die l).Up →
    DieDoes s (.tapInc l tap incs) l (fun d =>
      (List.range 16).foldl (fun d k => d.tapAdd (16 * tap + k) (incs.getD k 0).val) d) ∧
    (∀ (d : Die) (c n : Nat), d.countCtx.counts (c / 16) = false → d.tapAdd c n = d) ∧
    (∀ (d : Die) (c n : Nat), d.countCtx.counts (c / 16) = true →
      let old := sget {} d.spring.counters c
      let hit := !old.sat && n != 0 && (d.part.hdr (tapPage (c / 16))).armed.toNat.testBit 5
      let new := old.add (if hit then 0xFFFFFFFFFFFF else n)
      (d.tapAdd c n).spring.counters = sput {} d.spring.counters c new ∧
        ((new.sat = false ∨ old.sat = true) → (d.tapAdd c n).part.emitted = d.part.emitted)) ∧
    DieDoes s (.tapClr l tap) l (fun d => d.commanded (tapBase tap) 1 fun d =>
      d.onPart fun p => p.setBit (tapBase tap) 3 true) ∧
    DieDoes s (.hpSample l vals) l (fun d =>
      let w := d.spring.window
      let n := max 1 (d.part.num 0x40048)
      let due := match d.spring.hpAt with | some t => max d.now (t + 1) | none => max d.now (w.start + 1)
      let at_ := w.start + (due - w.start + n - 1) / n * n
      let present (p : Part) : Part := { p with hpIn := vals.foldl (fun m v => sput {} m v.1 ⟨v.2.1, v.2.2⟩) p.hpIn }
      if at_ < d.boundaryOf (w.index + 1) then
        let d := (d.onPart fun p => p.reach at_).onPart present
        (d.onSpring fun s => { s with hpRun := d.part.hpIn.foldl (fun m e =>
          if e.2.valid && decide (e.1 < 448) then sput {} m e.1 ((sget {} m e.1).add e.1 e.2.val) else m) s.hpRun }).onSpring
            fun s => { s with hpAt := some at_ }
      else d.onPart present) ∧
    exec (.springConfigWrite l addr w) s = exec (.registerWrite (.die l) addr w) s ∧
    (addr.toNat % 4 = 0 → addr.toNat / 0x1000 = 0x40 → 0x40 ≤ addr.toNat % 0x1000 →
      addr.toNat ∉ [0x400C0, 0x400C4, 0x400C8] → specOf false 0x40 (addr.toNat % 0x1000) = some (r, i) →
      DieDoes s (.springConfigWrite l addr w) l (fun d => d.admitted addr.toNat w fun d =>
        let old := d.part.num addr.toNat
        let n := mergeWord r old w.toNat
        if r.fields.any (fieldRefused ((d.part.hdr 0x40).lock) (d.staticFixed addr.toNat) old w.toNat) ||
            d.writeRefused addr.toNat old n w then
          d.onPart fun p => p.accessErr 0x40 addr.toNat w true
        else if old = n then d else d.onPart fun p => p.setNum addr.toNat n))

/-- For every die that is up: STEP_MARKER counts a lost marker, stamps the edge before its arrival, counts a break in the
numbers, counts the marker in its window, takes number and time into its registers, and with SPRING ACTIVE and step
records on in the configuration in force, delivers the step record; DELTAS_READY takes the oldest closed window out of
the close stage and into Riffle, LATE when its deadline had passed, while SPRING is not FAULTED; STEP_STORE_SEND and
RETENTION_SEND hand the stored records on, oldest first and marked HELD, while Sluice accepts them, a retained record
with an uncorrectable word being discarded. (R41, R84, R106, R107, R108, R109, R110, R117, R459) -/
def Obligations.StepMarkersAndStoredRecords : Prop :=
  ∀ (s : State) (l : Lane) (m : W32) (at_ : Nat) (lost : Option Nat) (es : List Ecc), (s.die l).Up →
    DieDoes s (.stepMarker l m at_ lost) l (fun d =>
      let m := m.toNat
      let d := match lost with
        | some n => d.onPart fun p => (p.inc 0x40060).raise 0x40 18 { detail := leBytes 4 n }
        | none => d
      let d := d.onPart fun p => p.reach at_
      let ts := (d.part.time.toNat * 2000 / 4294967296 - 5 * d.mon.periods.getD 1 500) / 2000
      let last := d.part.num 0x40054
      let brk := d.spring.seenMarker && decide (m ≠ (last + 1) % 4294967296)
      let d := if brk then d.onPart fun p => (p.inc 0x40078).raise 0x40 19 { detail := leBytes 4 (last + 1) ++ leBytes 4 m }
        else d
      let d := d.countMarker m ts
      let d := d.onPart fun p => (p.setNum 0x40054 m).setNum64 0x40058 ts
      let d := if d.part.active 0x40 && wbit d.spring.cfg.ctl 1 then
          (d.onPart fun p => p.stageStart 0x40 1 0 0 p.now).deliverStep
            ((d.onPart fun p => p.stageStart 0x40 1 0 0 p.now).stepRecord m ts brk)
        else d
      (d.onSpring fun s => { s with prevMarker := some ts, seenMarker := true }).pstepMarker m ts) ∧
    DieDoes s (.deltasReady l) l (fun d => match d.spring.closing with
      | [] => d
      | j :: rest =>
        if d.part.pstate 0x40 = .faulted then d
        else
          let inj := match d.part.stageFind 0x40 0 0 with | some i => i.injected | none => false
          let (late, p) := d.part.stageDone 0x40 0 0
          let d := { d with part := p, spring := { d.spring with closing := rest } }
          (d.rifTake { j with
            lateMask := if late then j.lateMask ||| 1 else j.lateMask
            injected := j.injected || inj }).rifFlushAll) ∧
    DieDoes s (.stepStoreSend l) l (fun d => Die.sendStored (d.spring.stepStore.length + 1) d) ∧
    DieDoes s (.retentionSend ⟨l, es⟩) l (fun d => Die.sendRetained (d.spring.retention.length + 1) es d) ∧
    (∀ (d : Die) (f : Nat), d.spring.stepStore = [] → Die.sendStored f d = d) ∧
    (∀ (d : Die) (f : Nat) (r : Rec) (rs : List Rec), d.spring.stepStore = r :: rs →
      Die.sendStored (f + 1) d = match d.handStep { r with bytes := patchFlags r.bytes 0x80 } with
        | none => d
        | some e => Die.sendStored f (e.onSpring fun s => { s with stepStore := rs }).noteStepHeld) ∧
    (∀ (d : Die) (f : Nat), d.spring.retention = [] → Die.sendRetained f es d = d) ∧
    (∀ (d : Die) (f : Nat) (r : Rec) (rs : List Rec), d.spring.retention = r :: rs →
      let held := { r with bytes := patchFlags r.bytes 0x80 }
      let x := { d.part with fresh := d.part.fresh + 1 }.eccRead 0x40 ((Config.free32 d.part.fresh).toNat % 98304) 3 (es.headD .ok) 0
      let e := { d with part := x.2 }
      Die.sendRetained (f + 1) es d =
        if d.offer held = none then d
        else if x.1 = .ue then Die.sendRetained f es.tail (e.dropRetained 0)
        else match e.offer held with
          | none => e
          | some e => Die.sendRetained f es.tail (e.onSpring fun s => { s with retention := rs }).noteHeld)

/-- For every die that is up: RIFFLE_VALIDATE clears SPARE_VALID and starts the check unless one runs, a swap is pending
or the page is locked (ACCESS_ERR then); RIFFLE_VALIDATION_DONE of a running check ends it with SPARE_VALID, or
VAL_ERR and a record with the byte offset of what failed, an uncorrectable word giving 0x0C; RIFFLE_SWAP_ARM arms a
valid spare for a window to come and is refused with ACCESS_ERR otherwise; FEATURES_READY of a window whose features
are present, on a page not FAULTED, counts the missing reasons and hands the vector of its bank to Eddy, an
uncorrectable word of the bank in force faulting the page or, of the former bank, costing that window alone. (R38,
R126, R132, R133, R134, R137, R138, R139, R140) -/
def Obligations.RiffleProgramsAndFeatures : Prop :=
  ∀ (s : State) (l : Lane) (word : Nat) (ecc : Ecc), (s.die l).Up →
    DieDoes s (.riffleValidate l) l (fun d => d.commanded 0x9040 2 fun d =>
      if d.part.bit 0x9044 5 || d.part.bit 0x9044 1 || (d.part.hdr 9).lock then
        d.onPart fun p => p.accessErr 9 0x9040 2 true
      else d.onPart fun p => (p.setBit 0x9044 3 false).setBit 0x9044 5 true) ∧
    DieDoes s (.riffleValidationDone l word ecc) l (fun d =>
      if d.part.bit 0x9044 5 = false then d
      else
        let b := 1 - d.rifBank
        let m := d.riffle.bank b
        let (ecc, p) := d.part.eccRead 9 word b ecc 0
        let (err, off) := if ecc = .ue then (0x0C, 8 * word) else validateImage m
        let p := (p.setBit 0x9044 5 false).setFld 0x9044 8 8 err
        { d with part :=
            if err = 0 then ((p.setBit 0x9044 3 true).setNum 0x905C (Mem.rdLE m 12 4)).setNum 0x9068 (imageCost m)
            else p.raise 9 16 { detail := leBytes 1 err ++ leBytes 4 off ++ leBytes 1 b } }) ∧
    DieDoes s (.riffleSwapArm l) l (fun d => d.commanded 0x9040 1 fun d =>
      let i := d.part.num64 0x9048
      if d.part.bit 0x9044 3 = true ∧ d.part.bit 0x9044 1 = false ∧ d.part.bit 0x9044 2 = false ∧ (d.part.hdr 9).lock = false ∧
          (i = 0 ∨ d.spring.window.index < i)
      then { d with part := d.part.setBit 0x9044 1 true, riffle := { d.riffle with armed := some i } }
      else d.onPart fun p => p.accessErr 9 0x9040 1 true) ∧
    DieDoes s (.featuresReady l word ecc) l (fun d => match d.riffle.queue with
      | [] => d
      | j :: rest =>
        if j.absent = true ∨ d.part.pstate 9 = .faulted then d
        else
          let (e, p) := d.part.eccRead 9 word j.bank ecc 0
          let t := { d with part := p }
          let m := t.riffle.bank j.bank
          let (ws, cl) := featureVector m j
          let done := { j with features := some ws, nfeat := imgNfeat m, progId := Mem.rdLE m 12 4 }
          if e = .ue then
            if j.bank ≠ d.rifBank then
              { t with riffle := { t.riffle with queue := { j with absent := true } :: rest }
                       part := t.part.stageDropNth 9 0 0 }.rifFlushAll
            else
              let t := t.onPart fun p => p.pageFault 9 0x04
              { t with riffle := { t.riffle with held := some done } }.rifAbsentAll.rifFlushAll
          else
            let (late, p) := t.part.stageDone 9 0 0
            let t := { t with part := (p.rifCounts j.index ws cl).event 9, riffle := { t.riffle with queue := rest } }
            ((t.rifServed j.index).toEddy
              { done with lateMask := if late then done.lateMask ||| 2 else done.lateMask }).rifFlushAll)

/-- For every die that is up: EDDY_VALIDATE starts the check of the slot unless one runs, the stage is armed or the page
is locked (ACCESS_ERR then); EDDY_VALIDATION_DONE of a running check ends it STAGED, or IDLE with VAL_ERR, VAL_SLOT
and a record with the byte address of what failed, an uncorrectable word giving 0x0B; EDDY_SWAP_ARM arms the group of
LOAD and UNLOAD whole when every slot allows it and is refused whole otherwise; SCORES_DELIVERED of a page not FAULTED
advances time to the last slot that scores and delivers the entries of the window at the front, then those no slot
scores. (R38, R153, R154, R158, R159, R160, R163, R164, R165, R167) -/
def Obligations.EddyModelsAndScores : Prop :=
  ∀ (s : State) (l : Lane) (slot : Fin 4) (word : Nat) (ecc : Ecc) (w : W32) (times : List Nat) (reads : List (Nat × Nat × Ecc)),
    (s.die l).Up →
    DieDoes s (.eddyValidate l slot) l (fun d => d.commanded 0x10040 (2 + 4 * slot) fun d =>
      if d.part.bit 0x10044 17 || decide (2 < d.edStage slot) || (d.part.hdr 0x10).lock then
        d.onPart fun p => p.accessErr 0x10 0x10040 (p.kept false 0x10040 ||| BitVec.ofNat 32 (2 + 4 * slot)) true
      else (d.edSetStage slot 1).onPart fun p => (p.setBit 0x10044 17 true).setFld 0x10044 18 2 slot) ∧
    DieDoes s (.eddyValidationDone l word ecc) l (fun d =>
      if d.part.bit 0x10044 17 = false then d
      else
        let s := d.part.fld 0x10044 18 2
        let (ecc, p) := d.part.eccRead 0x10 word (edIdent word) ecc 2
        let (err, addr) := if ecc = .ue then (0x0B, 8 * word) else d.edCheck s
        let d := { d with part := (p.setBit 0x10044 17 false).setFld 0x10044 24 8 err }
        if err = 0 then d.edSetStage s 2
        else (d.edSetStage s 0).onPart fun p => p.raise 0x10 18
          { unit := s, opCode := 2, detail := leBytes 1 err ++ leBytes 1 s ++ leBytes 4 addr }) ∧
    DieDoes s (.eddySwapArm l w) l (fun d => d.admitted 0x10040 (w ||| 1) fun d =>
      let w := w ||| 1
      let ld := bitsOf w.toNat 4 4
      let ul := bitsOf w.toNat 8 4
      let i := d.part.num64 0x10048
      let bad := wbit w 1 || decide (ld &&& ul ≠ 0) || decide (ld + ul = 0) || d.part.bit 0x10044 16 ||
        (d.part.hdr 0x10).lock || (decide (i ≠ 0) && decide (i ≤ d.spring.window.index)) ||
        (List.range 4).any fun s =>
          (ld.testBit s && (d.edStage s != 2 || d.edOldBusy s)) ||
            (ul.testBit s && (d.edStage s != 0 || !d.edResident s || d.edOldBusy s))
      if bad then d.onPart fun p => p.accessErr 0x10 0x10040 w true
      else
        let d := (List.range 4).foldl (fun d s =>
          if ld.testBit s then d.edSetStage s 3 else if ul.testBit s then d.edSetStage s 4 else d) d
        { d with eddy := { d.eddy with armed := some ⟨i, ld, ul⟩ }, part := d.part.setBit 0x10044 16 true }.edCosts) ∧
    DieDoes s (.scoresDelivered l times reads) l (fun d => match d.eddy.queue with
      | [] => d
      | j :: _ =>
        if d.part.pstate 0x10 = .faulted then d
        else
          let last := (List.range 4).foldl (fun m s => match j.model s with
            | some h => if d.edReason j s h = 0 then max m (times.getD s 0) else m
            | none => m) 0
          ((d.onPart fun p => p.reach (j.close + last)).edDeliver times reads).edFlushAll)

/-- For every die that is up: PROBE_DUE of a probed engine with a schedule, GAUGE ACTIVE, advances time to its due
instant, reads the history entry its interval depends on (an uncorrectable one faults the page), replaces and counts a
probe still unissued, and starts the next in the rotation; PROBE_ISSUE notes load and temperature bin and, with the
engine connected, its page ACTIVE and credit left, gives the slot to the first permitted claim in order, or an idle
slot to background probing; STEAL_WAIT_EXPIRED lets the waits that have lasted steal; PROBE_RESULT takes its probe out
of flight and judges the tile (an exact-set result is held while the reference unit is under test; a stored tile that
is uncorrectable ends the check unjudged), STATUS other than 0 being NO_RESULT; PROBE_TIMEOUT of a probe in flight is
a late failure and NO_RESULT at its timeout; a page FAULTED holds what either brings; a command that names no such
probe does nothing. (R172, R173, R174, R176, R177, R178, R179, R183, R186, R190, R421, R459) -/
def Obligations.ProbesAreIssuedAndJudged : Prop :=
  ∀ (s : State) (l : Lane) (e : Fin 640) (busy : Bool) (load tag status : Nat) (res : List Nat) (ecc : Ecc), (s.die l).Up →
    DieDoes s (.probeDue l ⟨e, ecc⟩) l (fun d => match (d.eng e).since with
      | none => d
      | some t0 =>
        if d.part.active 0x18 = false ∨ d.engProbed e = false then d
        else
          let due := t0 + d.interval e
          let d := d.onPart fun p => p.reach due
          let (x, p) := d.part.eccRead 0x18 (2 * (e * 8 + tbinOf (d.engTemp e))) 0 ecc 1
          if x = .ue then { d with part := p.pageFault 0x18 0x04 }
          else
            let d := { d with part := p }
            let d := if (d.unissued e).isSome || d.gauge.tapReq.contains e.val then
                let d := match d.unissued e with | some c => d.dropCheck c.id | none => d
                (d.onGauge fun g => { g with tapReq := g.tapReq.erase e }).onPart fun p =>
                  (p.inc 0x180B8).raise 0x18 20 ((d.engCond e).rep e 1 0 (leBytes 2 e ++ leBytes 1 (d.engLevel e)))
              else d
            let x := d.eng e
            let d := d.setEng e { x with since := some due, count := x.count + 1, fmtPos := x.fmtPos + 1 }
            let randomOk := d.part.bit 0x18040 1
            let exactOk := d.part.bit 0x18040 0 && d.part.bit 0x18044 0
            let tapOk := d.part.bit 0x18040 2 && d.part.bit (engAddr e) 2 && decide ((e : Nat) < 128) && d.ties.opTap
            match d.formatAt e x.fmtPos with
            | none => d
            | some f =>
              if x.count % 4 = 3 ∧ tapOk = true then
                (d.onGauge fun g => { g with tapReq := g.tapReq ++ [e.val] }).onPart fun p =>
                  { p with out := p.out ++ [Out.tapReq e] }
              else
                let random := decide (x.count % 2 = 1)
                if random && randomOk || !random && exactOk then d.startCheck (d.newCheck .scheduled random e f)
                else if random && exactOk || !random && randomOk then d.startCheck (d.newCheck .scheduled (!random) e f)
                else d) ∧
    DieDoes s (.probeIssue l e busy load) l (fun d =>
      let d := d.onPart fun p => p.setFld (engAddr e + 0x1C) 8 8 load
      if (d.part.active 0x18 = false ∧ d.part.pstate 0x18 ≠ .draining) ∨ d.part.bit 0x18044 1 = true ∨ d.engPresent e = false ∨
          d.part.active (engPage e) = false ∨ d.hasCredit e = false then d
      else
        let ws := d.gauge.waits.filter fun w => w.engine == e.val && d.mayIssue w busy
        let pick (k : Nat) := ws.find? fun w => match d.check w.check with
          | some c => c.claim w.role == k
          | none => false
        match (match pick 0 with
          | some w => some w
          | none => match pick 1 with
            | some w => some w
            | none => match pick 2 with
              | some w => some w
              | none => match pick 3 with
                | some w => some w
                | none => pick 4) with
        | some w => match d.check w.check with
          | some c => d.issue c w.role e busy
          | none => d
        | none => if busy = true ∨ d.part.active 0x18 = false then d else d.background e) ∧
    DieDoes s (.stealWaitExpired l e) l (fun d =>
      let wait := d.part.fld 0x1804C 16 16 * 1000
      let d := match d.gauge.waits.find? fun w => w.engine == e.val && !w.steal with
        | some w => d.onPart fun p => p.reach (w.asked + wait)
        | none => d
      d.onGauge fun g => { g with waits := g.waits.map fun w =>
        if w.engine = e.val ∧ w.asked + wait ≤ d.now then { w with steal := true } else w }) ∧
    DieDoes s (.probeResult l tag status ⟨res, ecc⟩) l (fun d => match d.gauge.probes.find? fun w => w.tag == tag with
      | none => d
      | some w =>
        let d := match d.probeItem w with
          | none => d
          | some i => { d with part := (d.part.itemDone i).2 }
        let d := d.onGauge fun g => { g with probes := g.probes.filter fun x => x.tag != tag }
        if d.part.pstate 0x18 = .faulted ∨ d.part.pstate (engPage w.engine) = .faulted then d
        else if status ≠ 0 then d.noResult w
        else match d.check w.check with
        | none => d
        | some c =>
          if c.random = false ∧ c.expect = none ∧ d.part.bit 0x18044 1 = true then
            d.onGauge fun g => { g with held := g.held ++ [(w, res)] }
          else if c.reads w.role then
            let (x, p) := { d.part with fresh := d.part.fresh + 1 }.eccRead 0x18
              ((Config.free32 d.part.fresh).toNat % 16384) (if c.tap.isSome then 1 else 2) ecc c.op
            let d := { d with part := p }
            if x = .ue then (d.endUnjudged c).testsEnd else (d.takeResult w res).testsEnd
          else (d.takeResult w res).testsEnd) ∧
    DieDoes s (.probeTimeout l tag) l (fun d => match d.gauge.probes.find? fun w => w.tag == tag with
      | none => d
      | some w =>
        let d := d.onPart fun p => p.reach (w.issued + p.num 0x18070 * 1000)
        let d := match d.probeItem w with
          | none => d
          | some i => { d with part := d.part.itemLost i }
        let d := d.onGauge fun g => { g with probes := g.probes.filter fun x => x.tag != tag }
        if d.part.pstate 0x18 = .faulted ∨ d.part.pstate (engPage w.engine) = .faulted then d else d.noResult w)

/-- For every die that is up: SELFTEST_START takes the oldest queued self-test into the running ones while fewer than 8
run, GAUGE is ACTIVE and the reference is not under test, and does nothing otherwise; ENGINE_ERR counts, stamps and
records, names a suspect and triggers a self-test; REF_RETEST starts the reference self-test, and REF_SELFTEST_DONE
ends a running one with REF_OK as it passed: a pass judges what was held, a failure stops the exact-set probes (those
of self-tests and dispute probes not yet begun become full-random); SELFTEST_REQ of an engine that exists triggers one
in ACTIVE or ENABLING and is refused with ACCESS_ERR otherwise; REPLAY_GO starts the replay of the configuration
registers unless one runs or it names no engine or format (ACCESS_ERR then); LEVEL_WR is the write of that word with
LEVEL_WR set: it sets the level of a connected engine and has no effect for an absent one; TAP_CAPTURE of the tile
awaited, while a tap entry is free, stores A, B and C and asks a peer, and does nothing otherwise. (R38, R172, R175,
R181, R184, R186, R187, R188, R193, R194, R196, R421) -/
def Obligations.SelfTestsOfEnginesAndReference : Prop :=
  ∀ (s : State) (l : Lane) (e : Fin 640) (code fmt tile mac : Nat) (pass : Bool) (w : W32) (a b c : List Nat), (s.die l).Up →
    DieDoes s (.selftestStart l) l (fun d => match d.gauge.queue with
      | [] => d
      | t :: rest =>
        if 8 ≤ d.gauge.running.length ∨ d.part.active 0x18 = false ∨ d.part.bit 0x18044 1 = true then d
        else
          let t := { t with exactHalf := d.part.bit 0x18044 0 }
          let d := d.onGauge fun g => { g with queue := rest, running := g.running ++ [t] }
          ((d.testBits t.engine).testProbes t).testsEnd) ∧
    DieDoes s (.engineErr l e code) l (fun d =>
      let d := d.onPart fun p => (p.inc (engAddr e + 0xC)).setNum64 (engAddr e + 0x14) p.now
      let d := d.gaugeRaise (engPage e) 18 ((d.engCond e).rep e 0 0 (leBytes 2 code))
      (d.suspect 0x0A12 e).trigger { engine := e, trigger := 1, start := d.now }) ∧
    DieDoes s (.refRetest l) l (fun d => d.commanded 0x18040 16 fun d =>
      let d := if d.ties.opTap = false ∧ d.part.bit 0x18040 2 = true then d.onPart fun p => p.setBit 0x18040 2 false else d
      d.onPart fun p => p.setBit 0x18044 1 true) ∧
    DieDoes s (.replayGo l) l (fun d => d.commanded 0x18040 32 fun d =>
      let w := d.part.kept false 0x18040 ||| 32
      let d := if d.ties.opTap = false ∧ d.part.bit 0x18040 2 = true then d.onPart fun p => p.setBit 0x18040 2 false else d
      let cfg := d.part.num 0x1809C
      let e := bitsOf cfg 0 10
      let f := bitsOf cfg 10 3
      if d.part.bit 0x18044 2 = true ∨ 640 ≤ e ∨ ¬ (f ∈ d.formats e) then
        d.onPart fun p => p.accessErr 0x18 0x18040 (if d.ties.opTap then w else withBits w 2 1 0) true
      else (d.onPart fun p => (p.setBit 0x18044 2 true).setFld 0x18044 3 2 0).startCheck
        { id := 0, origin := .replay, random := cfg.testBit 13, e := e, fmt := f, seed := d.part.num64 0x18074
          gdid := d.part.num 0x18090, seq := some (d.part.num64 0x18094 % 2 ^ 48) }) ∧
    DieDoes s (.refSelftestDone l pass tile mac) l (fun d =>
      if d.part.bit 0x18044 1 = false then d
      else
        let held := d.gauge.held
        let waiting := d.gauge.checks.filter fun c => c.refWait
        let d := (d.onPart fun p => (p.setBit 0x18044 1 false).setBit 0x18044 0 pass).onGauge fun g => { g with held := [] }
        if pass then
          let d := waiting.foldl (fun d c =>
            let ref := c.key.tileC
            let d := d.failing c c.e 0 ref (c.re.getD []) 0xFFFF (some (c.pattern ref))
            let d := d.failing c (c.p.getD 0) 0 ref (c.rp.getD []) 0xFFFF (some (c.pattern ref))
            d.settle c [c.e, c.p.getD 0]) d
          (held.foldl (fun d h => d.takeResult h.1 h.2) d).testsEnd
        else
          let d := d.gaugeRaise 0x18 16 { opCode := 7, detail := leBytes 1 tile ++ leBytes 1 mac }
          let exact := d.gauge.checks.filter fun c => !c.random && c.expect.isNone
          (exact.foldl (fun d c =>
            let begun := d.inFlight c.id || c.re.isSome || held.any fun h => h.1.check == c.id
            match c.origin with
            | .replay =>
              if begun then (d.onPart fun p => (p.setBit 0x18044 2 false).setFld 0x18044 3 2 0).dropCheck c.id else d
            | .selftest =>
              if begun then d.endUnjudged c
              else (d.onGauge fun g => { g with running := g.running.map fun t =>
                if t.engine = c.owner then { t with exactHalf := false } else t }).replaceCheck c
            | .dispute => if begun then d.endUnjudged c else d.replaceCheck c
            | _ => d.endUnjudged c) d).testsEnd) ∧
    DieDoes s (.selftestReq l w) l (fun d => d.admitted 0x1808C w fun d =>
      let e := bitsOf w.toNat 0 10
      if (d.part.pstate 0x18 = .active ∨ d.part.pstate 0x18 = .enabling) ∧ e < 640 then
        d.trigger { engine := e, trigger := 2, start := d.now }
      else d.onPart fun p => p.accessErr 0x18 0x1808C w true) ∧
    (∀ (r : RegSpec) (i : Nat), specOf false (engAddr e / 0x1000) (engAddr e % 0x1000) = some (r, i) →
      DieDoes s (.levelWr l e w) l (fun d => d.admitted (engAddr e) (w ||| 0x40) fun d =>
        if d.engPresent e = false then d
        else
          let m := if d.ties.opTap then w ||| 0x40 else withBits (w ||| 0x40) 2 1 0
          let old := d.part.num (engAddr e)
          if r.fields.any (fieldRefused ((d.part.hdr (engPage e)).lock) (d.staticFixed (engAddr e)) old m.toNat) then
            d.onPart fun p => p.accessErr (engPage e) (engAddr e) m true
          else
          let d := if mergeWord r old m.toNat = old then d else d.onPart fun p => p.setNum (engAddr e) (mergeWord r old m.toNat)
          d.setLevel e (bitsOf m.toNat 4 2) 3 0 (d.engPinned e && !wbit m 7))) ∧
    DieDoes s (.tapCapture l e fmt a b c) l (fun d =>
      if ¬ (e.val ∈ d.gauge.tapReq) ∨ ¬ (fmt ∈ d.formats e) then d
      else match (List.range 8).find? fun t => (sget none d.gauge.taps t).isNone with
      | none => d
      | some t =>
        let w := fmtBits fmt / 8
        let img (xs : List Nat) (w : Nat) : List Byte := padTo 1024 ((xs.take 256).map fun x => leBytes w x).flatten
        let ck := { d.newCheck .scheduled true e fmt with id := d.gauge.nextId, tap := some t, re := some (c.take 256) }
        let d := d.onGauge fun g => { g with
          tapReq := g.tapReq.erase e
          taps := sput none g.taps t (some (e.val, fmt))
          tapMem := Mem.wrBytes g.tapMem (3072 * t) (img a w ++ img b w ++ img c 4)
          nextId := g.nextId + 1, checks := g.checks ++ [ck] }
        let (q, d) := d.choosePeer e [e.val]
        match q with
        | none => d.arbNone ck
        | some q => (d.putCheck { ck with p := some q }).ask ck.id .peer q)

/-- For every die that is up: GATE_REQUEST of a fifth step, a step already queued, or one not above RELEASED_LAST is
refused with its cause and count; any other takes the lowest free slot, QUEUED with its arrival, takes over FLAG_NEXT,
and goes to CHECK when it is head; DECIDE with the head in CHECK advances time to its decision instant and releases or
holds it by the first hold cause, and does nothing otherwise; GATE_RESPONSE_ACK of a response that is not abandoned
ends its exchange, presents the next, and of an answered slot frees it and makes the next head; RESPONSE_REPRESENT
presents an abandoned response 10 us after it was abandoned. (R198, R200, R201, R202, R205, R215) -/
def Obligations.TheGateQueuesAndDecides : Prop :=
  ∀ (s : State) (l : Lane) (step : W32), (s.die l).Up →
    DieDoes s (.gateRequest l step) l (fun d =>
      let n := step.toNat
      let refuse (cause : Nat) : Die := (d.oxRespond (.refused n)).onPart fun p => (p.inc 0x8098).raise 8 21
        { opCode := 1, detail := leBytes 4 n ++ leBytes 1 (p.fld 0x8044 0 3) ++ leBytes 1 cause }
      if 4 ≤ d.oxbow.order.length then refuse 1
      else if d.oxbow.order.any (fun s => d.oxStep s == n) then refuse 2
      else if d.part.num 0x8058 ≠ 0xFFFFFFFF ∧ n ≤ d.part.num 0x8058 then refuse 3
      else match (List.range 4).find? (fun s => !d.oxbow.order.contains s) with
      | none => d
      | some s =>
        let due := d.now + (if d.part.bit 0x8040 0 then 0 else d.part.num 0x8048)
        let behindHold := d.oxbow.order.any fun t => d.oxState t == 3
        let flag := d.part.bit 0x8044 4
        let d := d.onOx fun o =>
          { o with
            order := o.order ++ [s], due := sput 0 o.due s due
            flagged := sput none o.flagged s (if flag then some (o.nextCause.getD ⟨0, 0, 0xFFFF⟩) else none)
            meanwhile := sput false o.meanwhile s (d.part.pstate 8 == .draining) }
        let d := d.onPart fun p =>
          let p := ((p.setNum (oxAddr s) n).setNum (oxAddr s + 4) 1).setNum64 (oxAddr s + 8) p.now
          let p := (p.setBit 0x8044 4 false).setFld 0x8044 0 3 d.oxbow.order.length
          if behindHold then p else p.stageStart 8 0 s 1 p.now
        if d.isHead s then d.oxHead else d) ∧
    DieDoes s (.decideAt l) l (fun d => match d.oxbow.order.head? with
      | none => d
      | some h =>
        if d.oxState h ≠ 2 then d
        else
          let d := d.onPart fun p => p.reach (sget 0 d.oxbow.due h)
          if d.part.pstate 8 = .faulted then d
          else if (d.part.pstate 8 = .off ∨ d.part.pstate 8 = .enabling) ∧ d.part.bit 0x8040 1 = false then d.oxRelease h true
          else if d.holdCause h = 0 then d.oxRelease h false
          else d.oxHold h (d.holdCause h)) ∧
    DieDoes s (.gateResponseAck l) l (fun d => match d.oxbow.resp, d.oxbow.abandoned with
      | r :: rest, none =>
        let d := (d.onOx fun o => { o with resp := rest }).present
        match r with
        | .refused _ => d
        | .slot s =>
          let order := d.oxbow.order.erase s
          let d := d.onOx fun o =>
            { o with
              order := order, flagged := sput none o.flagged s none, due := sput 0 o.due s 0
              meanwhile := sput false o.meanwhile s false }
          (d.onPart fun p => (p.setNum (oxAddr s + 4) 0).setFld 0x8044 0 3 order.length).oxHead
      | _, _ => d) ∧
    DieDoes s (.responseRepresent l) l (fun d => match d.oxbow.abandoned with
      | none => d
      | some t => ((d.onPart fun p => p.reach (t + 10000)).onOx fun o => { o with abandoned := none }).onPart fun p =>
          match d.oxbow.resp with
          | .slot s :: _ => { p with out := p.out ++ [Out.gate (p.fld (oxAddr s + 4) 6 2) (p.num (oxAddr s))] }
          | .refused step :: _ => { p with out := p.out ++ [Out.gate 3 step] }
          | [] => p)

/-- For every die that is up: VERDICT_RELEASE and VERDICT_DISCARD name the HELD slot of VERDICT_STEP; without one, with
another tag, and a release while disputed they are refused with causes 1, 2 and 3; else the step is released, or
discarded with the follow flag past the last marker; DISPUTE_SET and a DISPUTE cell that stands and names an engine or
the die merge the path of a dispute of the same tag and else set the dispute, its record and its probe; DISPUTE_CLR is
the write of CTL with DISPUTE_CLR set: refused where a field of it is (ACCESS_ERR) or DISPUTE_SET goes with it
(CMD_ERR), it clears the dispute of the tag in DISPUTE_ARG, and with RELEASE_HELD releases the slots it held, and is
refused with ACCESS_ERR for any other tag. (R38, R47, R207, R208, R211, R212, R213) -/
def Obligations.VerdictsAndDisputes : Prop :=
  ∀ (s : State) (l : Lane) (tag : W16) (h : CellHdr) (t unit : Nat) (w : W32), (s.die l).Up →
    let held (d : Die) : Option Nat := if d.part.pstate 8 = .faulted then none
      else d.oxbow.order.find? fun s => d.oxState s == 3 && d.oxStep s == d.part.num 0x8068
    let refused (d : Die) (w : W32) (cause : Nat) : Die := d.onPart fun p =>
      ((p.accessErrOp 8 0x806C w true 2).inc 0x8094).raise 8 20
        { opCode := 2
          detail := leBytes 4 (p.num 0x8068) ++ leBytes 2 tag.toNat ++ leBytes 1 (w.toNat / 65536) ++ leBytes 1 cause }
    let dispute (d : Die) (tag unit src : Nat) : Die :=
      if d.part.bit 0x8044 3 = true ∧ d.part.fld 0x8044 16 16 = tag then
        d.onPart fun p => p.setFld 0x8044 8 3 (p.fld 0x8044 8 3 ||| 2 ^ src)
      else
        let n := (d.oxbow.order.filter fun s => d.oxState s == 1 || d.oxState s == 2).length
        let d := d.onPart fun p =>
          let p := if p.bit 0x8044 3 then p else p.setBit 0x50 1 true
          let p := (((p.setBit 0x8044 3 true).setFld 0x8044 8 3 (2 ^ src)).setFld 0x8044 16 16 tag).setFld 0x8074 0 10 unit
          p.raiseEach 8 18
            { opCode := 3, detail := leBytes 2 tag ++ leBytes 2 unit ++ leBytes 1 (2 ^ src) ++ leBytes 1 n }
        (d.onOx fun o => { o with disputeAt := d.now }).disputeAsk tag unit
    DieDoes s (.verdictRelease l tag) l (fun d =>
      let w := BitVec.ofNat 32 (tag.toNat + 65536)
      d.admitted 0x806C w fun d => match held d with
      | none => refused d w 1
      | some s =>
        if d.part.fld (oxAddr s + 4) 16 16 ≠ tag.toNat then refused d w 2
        else if d.part.bit 0x8044 3 then refused d w 3 else d.oxRelease s false) ∧
    DieDoes s (.verdictDiscard l tag) l (fun d =>
      let w := BitVec.ofNat 32 (tag.toNat + 131072)
      d.admitted 0x806C w fun d => match held d with
      | none => refused d w 1
      | some s =>
        if d.part.fld (oxAddr s + 4) 16 16 ≠ tag.toNat then refused d w 2
        else
          let m := min 0xFFFFFFFF ((d.lastMarker.getD (d.part.num 0x8068)) + 1)
          let d := d.onOx fun o => { o with follow := some (match o.follow with | some f => max f m | none => m) }
          (d.onPart fun p => p.setNum 0x8054 (max (p.num 0x8054) m)).oxDiscard s) ∧
    DieDoes s (.disputeSet l) l (fun d => d.commanded 0x8040 8 fun d =>
      dispute d (d.part.fld 0x8070 0 16) (d.part.fld 0x8070 16 10) 2) ∧
    DieDoes s (.disputeCell l h t unit) l (fun d =>
      let x := d.cellIn h 6 (some 8)
      if x.1 = false then x.2
      else if unit < 640 ∨ unit = 0x3FF then dispute x.2 t unit 0 else x.2.refuseCell h 6 4) ∧
    (∀ (r : RegSpec) (i : Nat), specOf false 8 0x40 = some (r, i) →
      DieDoes s (.disputeClr l w) l (fun d => d.admitted 0x8040 (w ||| 0x10) fun d =>
        let w := w ||| 0x10
        let old := d.part.num 0x8040
        let n := mergeWord r old w.toNat
        if r.fields.any (fieldRefused ((d.part.hdr 8).lock) (d.part.pstate 8 != .off) old w.toNat) then
          d.onPart fun p => p.accessErr 8 0x8040 w true
        else if wbit w 3 then d.onPart fun p => p.cmdErrOp 8 w.toNat 3
        else
          let d := if old = n then d else d.onPart fun p => p.setNum 0x8040 n
          if d.part.bit 0x8044 3 = true ∧ d.part.fld 0x8044 16 16 = d.part.fld 0x8070 0 16 then
            let d := d.onPart fun p => (p.setBit 0x8044 3 false).setFld 0x8044 8 3 0
            if wbit w 5 = true ∧ d.part.pstate 8 ≠ .faulted then
              d.oxbow.order.foldl (fun d s =>
                if d.oxState s = 3 ∧ d.part.fld (oxAddr s + 4) 3 3 = 2 then
                  match d.holdCause s with
                  | 0 => d.oxRelease s false
                  | r => d.onPart fun p => p.setFld (oxAddr s + 4) 3 3 r
                else d) d
            else d
          else d.onPart fun p => p.accessErrOp 8 0x8040 w true 3))

/-- For every die that is up: BORE_FRAME_RECEIVE checks START, CRC, COPY and LINK_SEQ of the frame, takes the copy into
the vote whose body it repeats or the oldest that lacks it, and judges the votes again when a copy went down;
VOTE_WINDOW_EXPIRED with a vote open advances time to the first window end and closes that vote, or counts
NO_MAJORITY; COPY_RESET puts every copy up, ends SIMPLEX and zeroes the disagreement runs; LAUNCH of an allowed type
and scope from an ACTIVE page in a partition sends the event of the LAUNCH registers with LAUNCH_RESULT 1 and
otherwise reports result 2 with ACCESS_ERR and cause 5; SNAPSHOT_PART_SEND hands the next part of the cut to Sluice
when it is accepted, the last one ending the cut. (R38, R47, R219, R220, R221, R222, R225, R236, R237, R238) -/
def Obligations.BoreCopiesVotesAndLaunches : Prop :=
  ∀ (s : State) (l : Lane) (c : Fin 3) (f : PairFrame) (upset : Nat), (s.die l).Up →
    DieDoes s (.boreFrameReceive l c f.copy f.seq ⟨f.start, f.crc⟩ f.body) l (fun d =>
      let ups := d.upCopies
      let whole := f.start == 0x5B &&
        f.crc == (crc32 (leBytes 1 f.start ++ leBytes 1 f.copy ++ leBytes 2 f.seq ++ f.body.bytes)).toNat
      let d := if whole then
          let want := sget none d.bore.rxSeq c
          let d := d.onBore fun b => { b with rxSeq := sput none b.rxSeq c (some ((f.seq + 1) % 65536)) }
          match want with
          | none => d
          | some w => if w = f.seq ∨ d.part.bit 0x3044 c = false then d else d.copyDisagrees 3 0 c 0 false
        else d
      let good := whole && f.copy % 4 == c.val
      let d := if whole && f.copy % 4 != c.val && d.part.bit 0x3044 c then d.copyDisagrees 3 0 c 0 false else d
      let join (d : Die) (v : Vote) : Die := (d.onBore fun b => { b with votes := b.votes.erase v }).voteJudge
        (if good then { v with copies := v.copies ++ [(c.val, f.body)] } else { v with bad := v.bad ++ [c.val] })
      let d :=
        if d.part.bit 0x3044 c = false then d
        else if good = true ∧ d.bore.missing.contains (c.val, f.body) = true then
          d.onBore fun b => { b with missing := b.missing.erase (c.val, f.body) }
        else
          let lacking := d.bore.votes.filter fun v => !v.has c
          match (lacking.find? fun v => v.copies.any fun x => x.2 == f.body), lacking.head? with
          | some v, _ => join d v
          | none, some v => join d v
          | none, none => if good then d.voteJudge { copies := [(c.val, f.body)], first := d.now } else d
      if d.upCopies = ups then d
      else d.bore.votes.foldl (fun d v => d.voteJudge v) (d.onBore fun b => { b with votes := [] })) ∧
    DieDoes s (.voteWindowExpired l) l (fun d => match firstVote (d.part.fld 0x3098 0 16) d.bore.votes with
      | none => d
      | some v =>
        let d := d.onPart fun p => p.reach (v.due (p.fld 0x3098 0 16))
        let d := d.onBore fun b => { b with votes := b.votes.erase v }
        match v.acted with
        | some e => (d.voteClose v e).voteAgain d.upCopies
        | none => d.noMajority v) ∧
    DieDoes s (.copyReset l) l (fun d => d.commanded 0x3040 2 fun d =>
      (d.onBore fun b => { b with runs := [], missing := [], upset := 0 }).onPart fun p =>
        (p.setFld 0x3044 0 3 7).setBit 0x3044 3 false) ∧
    DieDoes s (.launch ⟨l, upset⟩) l (fun d =>
      (d.onBore fun b => { b with upset := b.upset ||| upset }).commanded 0x3040 1 fun d =>
        let p := d.part
        let typ := p.fld 0x3054 0 8
        let scope := p.fld 0x3054 16 2
        if (typ = 1 ∨ typ = 2 ∨ typ = 8 ∨ typ = 9) ∧ scope ≠ 3 ∧ d.partition ≠ 0xFFFF ∧ p.bit 0x3044 4 = false ∧ p.active 3 = true
        then
          let x := d.makeEvent typ (p.fld 0x3054 8 8) scope (p.num 0x3058) (p.num64 0x305C) (p.num 0x3064) (p.num 0x3068)
          (if scope = 0 then
              let v := x.2.copiesVote 3 0 x.1
              if v.1 then v.2.boreAccept x.1 false else v.2
            else x.2.boreSend x.1).onPart fun p => p.setFld 0x3044 8 2 1
        else d.onPart fun p => ((p.setFld 0x3044 8 2 2).accessErr 3 0x3040 (d.part.kept false 0x3040 ||| 1) true).raise 3 18
          { detail := leBytes 1 typ ++ [5] ++ leBytes 2 (p.fld 0x306C 0 16) ++ leBytes 4 p.gdid ++ leBytes 2 d.partition }) ∧
    DieDoes s (.snapshotPartSend l) l (fun d => match d.bore.cut with
      | none => d
      | some k => match k.parts with
        | [] => d
        | r :: rs => match d.offer r with
          | none => d
          | some d =>
            if rs = [] then (d.onBore fun b => { b with cut := none }).onPart fun p => p.setBit 0x3044 5 false
            else d.onBore fun b => { b with cut := some { k with parts := rs } })

/-- For every die that is up: CORE_ARRIVE and REGISTER_ARRIVE with a nonzero count are one handshake of the copies of the
context, without a majority nothing acts, and then they are dropped with cause 2 on a page that is not ACTIVE, with
cause 1 at a DISABLED context, and are counted otherwise; a register arrival of count 0 is refused with ACCESS_ERR;
CONTEXT_RESET zeroes the count, SAT and phase, leaves the context COUNTING when enabled and DISABLED otherwise, and
releases its waiters as aborted; CONTEXT_ENABLE sets EN of a disabled context and starts it counting from 0, changes
nothing of an enabled one, and on a locked page is refused with ACCESS_ERR. (R38, R47, R219, R231, R232, R233, R241,
R242, R243) -/
def Obligations.BarrierContexts : Prop :=
  ∀ (s : State) (l : Lane) (core : Fin 64) (ctx : Fin 256) (sense : Bool) (n : W16) (upset : Nat), (s.die l).Up →
    let arrive (d : Die) (n : Nat) (src : ArriveSrc) : Die :=
      let v := d.copiesVote (ctxPage ctx) ctx { typ := 3, qual := b2n sense, arg0 := ctx, arg1 := n }
      if v.1 = false then v.2
      else if v.2.part.active (ctxPage ctx) = false then v.2.ctxDropped ctx 2 n src
      else if v.2.ctxState ctx = 0 then v.2.ctxDropped ctx 1 n src
      else v.2.ctxCountArrival ctx (b2n sense) n src
    DieDoes s (.coreArrive ⟨l, upset⟩ core ctx sense) l (fun d =>
      arrive (d.onBore fun b => { b with upset := b.upset ||| upset, lastCtx := sput none b.lastCtx core (some ctx.val) })
        1 ⟨0, core⟩) ∧
    DieDoes s (.registerArrive ⟨l, upset⟩ ctx sense n) l (fun d =>
      let w := BitVec.ofNat 32 (n.toNat + 65536 * b2n sense)
      (d.onBore fun b => { b with upset := b.upset ||| upset }).admitted (ctxAddr ctx + 0x10) w fun d =>
        if n = 0 then d.onPart fun p => p.accessErr (ctxPage ctx) (ctxAddr ctx + 0x10) w true
        else arrive d n.toNat ⟨1, 0⟩) ∧
    DieDoes s (.contextReset l ctx) l (fun d => d.commanded (ctxAddr ctx) 0x80 fun d =>
      ((((d.setCount ctx 0).onPart fun p => (p.setFld (ctxAddr ctx + 8) 16 1 0).setNum (ctxAddr ctx + 0x14) 0)).setCtxState ctx
        (if d.part.bit (ctxAddr ctx) 0 then 1 else 0)).ctxWake ctx true) ∧
    (swf (resetWord (s.die l).part.isAgg) (s.die l).part.regs = true →
      DieDoes s (.contextEnable l ctx) l (fun d => d.commanded (ctxAddr ctx) 1 fun d =>
        if d.part.bit (ctxAddr ctx) 0 then d
        else if (d.part.hdr (ctxPage ctx)).lock then
          d.onPart fun p => p.accessErr (ctxPage ctx) (ctxAddr ctx) (d.part.kept false (ctxAddr ctx) ||| 1) true
        else
          let d := d.onPart fun p => p.setBit (ctxAddr ctx) 0 true
          if d.ctxState ctx = 0 then (d.setCount ctx 0).setCtxState ctx 1 else d))

/-- For every ready aggregator: while REF156 is lost no frame is taken; AGG_BORE_ECHO and EVENT_ACK_RECEIVE from a port
take the frames (one whose START, CRC or COPY fails is absent, a gap is counted) and the tray role notes the lanes
alive; without two equal copies nothing more happens; an EVENT_ACK is set beside its note; an event of scope DIE stops
here; one of a partition not valid, or whose mask does not hold the port, is dropped at the fence with causes 1 and 4;
any other is stamped, echoed and relayed, one addressed to a die without a route being counted as unroutable;
AGG_BORE_ECHO of the up port does so as the aggregator; RELAY_FRAME_RECEIVE that stands is dropped with causes 1, 2
and 3 or echoed to the tray once and never relayed. (R18, R220, R222, R225, R226, R227, R229, R305, R385, R443) -/
def Obligations.BoreAtTheAggregator : Prop :=
  ∀ (s : State) (l : Lane) (copies : List (Option PairFrame)) (h : EthHdr) (group : Nat) (e : BoreEvent),
    s.agg.phase = .ready →
    let fromDie (g : Agg) : Agg :=
      if g.interior = true ∨ g.part.disc.refLoss = true then g
      else
        let x := g.boreTake l.val copies
        let g := x.2.boreAlive l.val (((List.range 3).zip copies).map fun x => if x.2.any PairFrame.ok then 2 ^ x.1 else 0).sum
        match majority x.1 with
        | none => g
        | some e =>
          if e.typ = 15 then
            (g.pathTold 1 l.val (e.arg0 % 65536) e.arg1 e.qual).ackCount l.val (e.arg0 % 65536) (e.arg0 / 65536 % 256) e.arg1 e.qual
          else if e.scope % 4 = 0 then g
          else if g.fValid e.partition = false then g.fenceDrop e 1
          else if (g.fMask e.partition).testBit l.val = false then g.fenceDrop e 4
          else g.echo e
    AggDoes s (.aggBoreEcho (.die l) copies) fromDie ∧
    AggDoes s (.eventAckReceive l copies) fromDie ∧
    AggDoes s (.aggBoreEcho .up copies) (fun g =>
      let x := g.boreTake 16 copies
      if g.part.disc.refLoss then g
      else match majority x.1 with
      | none => x.2
      | some e =>
        let e := { e with source := x.2.nodeId, scope := e.scope - (if e.scope.testBit 4 then 16 else 0) + 16 }
        if e.scope % 4 = 0 then x.2
        else if x.2.fValid e.partition = false then x.2.fenceDrop e 1 else x.2.echo e) ∧
    (∀ (g : Agg) (e : BoreEvent), g.echo e =
      let e := if e.exec = 0 ∧ e.scope % 4 = 2 ∧ e.dest = 0xFFFFFFFF ∧ g.fRemote e.partition = true then
          { e with
            exec := g.now + (if g.part.time.frac = 0 then 0 else 1) + g.part.num 0x4044
            scope := e.scope - (if e.scope.testBit 3 then 8 else 0) + 8 }
        else e
      if e.dest ≠ 0xFFFFFFFF ∧ g.routed e.dest = false then g.unroutable e.dest 1
      else
        let g := (g.jobsAbort e).boreAll (g.echoLanes e) e
        let away := if e.dest = 0xFFFFFFFF then e.scope % 4 == 2 else !g.rLocal e.dest
        if away = true ∧ g.fRemote e.partition = true then
          g.ethSend (g.fGroup e.partition) (.event (g.fGroup e.partition) e)
        else g) ∧
    AggDoes s (.relayFrameReceive h group e) (fun g =>
      let x := g.treeIn h (.event group e)
      let g := x.2
      if x.1 = false then g
      else if g.fValid e.partition = false ∨ (g.fFlags e.partition).testBit 2 = false then g.fenceDrop e 1
      else if (g.fTypes e.partition).testBit e.typ = false then g.fenceDrop e 2
      else if g.fGroup e.partition ≠ group then g.fenceDrop e 3
      else if g.interior then g.jobsAbort e
      else if e.dest ≠ 0xFFFFFFFF ∧ g.routed e.dest = false then g.unroutable e.dest 1
      else (g.jobsAbort e).boreAll (g.echoLanes e) e)

/-- For every die that is up: CORE_TAP_RECORD of an invalid record raises TAP_ERROR naming its first bad field and, in a
tracing core, starts the stream afresh with SYNC reason 1; of a core that does not trace a valid one only keeps the
low-power status; any other becomes its outcomes, address event, access and status packets in that order (the order is
the choice of the model, log entry 19); FRAME_FORM_TIMEOUT of a core with bytes advances time to 1 us after the oldest
of them and makes its frame ready; FRAME_SEND serves the next core in turn whose frame is ready to every sink, the
port sending FILL when it has none; SYNC_NOW places SYNC reason 1 in a tracing stream and is refused on a page not
ACTIVE; BUF_ARM and BUF_UPLOAD are refused while an upload runs (UPLOAD also in WRAPPING and POST) and else act;
BUF_DISARM and TRIG_NOW act; TRACE_UPLOAD_SEND hands on the next trace record once Sluice accepts it, and the last one
ends the upload with its flag. (R38, R244, R246, R249, R250, R251, R252, R253, R254, R255, R256, R265) -/
def Obligations.TraceRecordsFramesAndTheBuffer : Prop :=
  ∀ (s : State) (l : Lane) (core : Fin 64) (r : TapRec), (s.die l).Up →
    let low (k : Nat) (d : Die) : Die := match r.status with
      | 2 => d.onPart fun p => (p.setBit (coreAddr k + 0x44) 7 true).setFld (coreAddr k + 0x44) 16 8 r.lp
      | 3 => d.onPart fun p => p.setBit (coreAddr k + 0x44) 7 false
      | _ => d
    let next (d : Die) (k reason : Nat) : Die := ((d.startStream k).flushBranch k).sync k reason
    let bufErr (d : Die) (w : W32) : Die := d.onPart fun p => p.accessErrOp 0x140 0x140044 w true 3
    DieDoes s (.coreTapRecord l core r) l (fun d =>
      let k := core.val
      let bad := if 4 < r.brCount then 1
        else if (match r.ind with | some i => decide (1 < i.1) | none => false) then 2
        else if 5 < r.status then 4 else 0
      if bad ≠ 0 then
        let d := d.onPart fun p => p.raise (corePage k) 18
          { unit := k, opCode := 1, detail := leBytes 1 bad ++ leBytes 8 p.now }
        if d.tracing k then next d k 1 else d
      else if d.tracing k = false then low k d
      else
        let brEn := d.part.bit (coreAddr k + 0x40) 1
        let d := if r.status = 3 then low k (next d k 3) else d
        let d := if (d.core k).resumed = true ∧ brEn = true ∧ 0 < r.brCount then
            next (d.setCore k { d.core k with resumed := false }) k 6 else d
        let d := if brEn then (List.range r.brCount).foldl (fun d i => d.outcome k (r.brTaken.testBit (3 - i))) d else d
        let d := match (if brEn then r.ind else none) with
          | none => d
          | some (kind, vec, target, exc) =>
            if kind = 0 then
              (d.flushBranch k).packet k d.now (fun d => [indirectBytes (d.core k).lastInd target]) fun c => { c with lastInd := target }
            else
              (d.flushBranch k).packet k d.now
                (fun _ => [[0x06] ++ leBytes 2 vec ++ leBytes 8 exc, [0x05] ++ leBytes 8 target]) fun c => { c with lastInd := target }
        let d := match (if d.part.bit (coreAddr k + 0x40) 2 then r.data else none) with
          | none => d
          | some (store, size, a, v) => match d.dataRange k store a with
            | none => d
            | some q => (d.flushBranch k).packet k d.now
                (fun d => [dataBytes (d.core k).lastData q (d.part.bit (coreAddr k + 0x190 + 0x20 * q) 3) store size a v])
                fun c => { c with lastData := some a }
        if r.status = 2 then low k ((next d k 7).put k true [[0x0D] ++ leBytes 1 r.lp]) else d) ∧
    DieDoes s (.frameFormTimeout l core) l (fun d => match (d.core core).fifo with
      | [] => d
      | b :: _ => (d.onPart fun p => p.reach (b.since + 1000)).setCore core { d.core core with part := true }) ∧
    DieDoes s (.frameSend l) l (fun d =>
      let port := d.part.active 0x140 && d.part.bit 0x140040 2
      let buf := d.part.active 0x140 && d.part.bit 0x140040 3 && decide (d.bufState ≠ 0) && decide (d.bufState ≠ 3)
      let fill := traceFrame 0 true []
      let send (f : List Byte) (d : Die) : Die := match d.part.fld 0x140040 0 2 with
        | 1 => d.onPart fun p => { p with out := p.out ++
            [Out.traceSerial ((List.range 4).map fun j => (f.drop (8 * j)).take 8)] }
        | 2 => d.onPart fun p => { p with out := p.out ++
            [Out.traceParallel ((List.range 16).map fun k => (leNat ((f.drop (2 * k)).take 2), k == 0))] }
        | _ => d
      match (if port || buf then (List.range 64).find? fun i => (d.core ((d.meander.rr + i) % 64)).ready else none) with
      | none => send fill d
      | some i =>
        let k := (d.meander.rr + i) % 64
        let c := d.core k
        let f := traceFrame k false (c.fifo.take 27)
        let d := d.onMeander fun m => { m with rr := (k + 1) % 64 }
        let d := d.setCore k { c with fifo := c.fifo.drop 27, part := false }
        let d := if port then send f (d.onPart fun p => p.incWrap 0x140074 1) else send fill d
        let d := if buf then d.bufWrite f else d
        (d.onPart fun p => p.event 0x140).fifoLow k) ∧
    DieDoes s (.syncNow l core) l (fun d => d.commanded (coreAddr core + 0x40) 0x40 fun d =>
      if d.part.active (corePage core) = false then
        d.onPart fun p => p.accessErrOp (corePage core) (coreAddr core + 0x40) 0x40 true 1
      else if d.tracing core then next d core 1 else d) ∧
    DieDoes s (.bufArm l) l (fun d => d.admitted 0x140044 1 fun d =>
      if d.part.bit 0x140048 3 then bufErr d 1
      else
        let d := d.onPart fun p => ((p.setFld 0x140048 0 2 1).setBit 0x140048 2 false).wr 0x140050 0
        let d := d.onMeander fun m => { m with postLeft := 0, wrappedAtTrig := false, trigAt := none }
        d.tracers.foldl (fun d k => if (d.core k).started then (next d k 4).fifoLow k else d.startStream k) d) ∧
    DieDoes s (.bufDisarm l) l (fun d => d.admitted 0x140044 2 fun d =>
      (d.onPart fun p => p.setFld 0x140048 0 2 0).sinkCheck) ∧
    DieDoes s (.trigNow l) l (fun d => d.admitted 0x140044 4 fun d =>
      let taken := decide (d.bufState = 1)
      let d := d.tracers.foldl (fun d k =>
        let d := d.stamped k true ([0x0E] ++ leBytes 1 0 ++ leBytes 4 0)
        if taken then d.sync k 5 else d) d
      if taken then
        let d := d.onPart fun p =>
          let p := ((p.wr 0x140054 (p.rd 0x140050)).setNum64 0x140058 p.now).triggerTaken 0 0 0
          (p.setBit 0x14007C 0 true).setFld 0x140048 0 2 2
        let d := d.onMeander fun m =>
          { m with postLeft := d.postFrames, wrappedAtTrig := d.part.bit 0x140048 2, trigAt := some d.part.time }
        if d.postFrames = 0 then d.bufFull else d
      else
        let held := triggerRank (d.part.fld 0x140048 8 4) (d.part.fld 0x140048 12 6) (d.part.num 0x140060)
        let first := d.meander.trigAt = some d.part.time ∧ d.bufState ≠ 0 ∧ 1025 < held
        (if first then d.onPart fun p => p.triggerTaken 0 0 0 else d).onPart fun p => p.inc 0x140064) ∧
    DieDoes s (.bufUpload l) l (fun d => d.admitted 0x140044 8 fun d =>
      if d.part.bit 0x140048 3 = true ∨ d.bufState = 1 ∨ d.bufState = 2 then bufErr d 8
      else
        let rs := (chunk64 4096 d.validFrames).map d.traceRecord
        if rs = [] then d.onPart fun p => p.setBit 0x14007C 2 true
        else (d.onMeander fun m => { m with upload := rs }).onPart fun p => p.setBit 0x140048 3 true) ∧
    DieDoes s (.traceUploadSend l) l (fun d => match d.meander.upload with
      | [] => d
      | x :: rs => match d.offer x with
        | none => d
        | some d =>
          let d := d.onMeander fun m => { m with upload := rs }
          if rs = [] then d.onPart fun p => (p.setBit 0x140048 3 false).setBit 0x14007C 2 true else d)

/-- For every die that is up: on an ACTIVE page CORE_HALT of a RUNNING core asks it to halt with cause 1 and starts its
deadline stage, of a resuming core notes the halt for later, and else raises the cause rank; CORE_RESUME resumes a
HALTED core, does nothing to a resuming one and is refused of any other; both are refused with ACCESS_ERR on a page
that is not ACTIVE; CORE_HALTED, CORE_DRAINED and CORE_RUNNING move HALT_WAIT to DRAIN_WAIT, DRAIN_WAIT to HALTED with
the map bit and flag, RESUME_WAIT to RUNNING with HALT_NS grown and a noted halt sent, and do nothing in any other
state; COMPARATOR_WRITE is a register write of the page of the core: of a comparator it stores its word and sends the
comparator, or clears COMP_SYNCED where the page is not ACTIVE; COMP_ACK of the last setting sent sets COMP_SYNCED on
an ACTIVE page; COMP_MATCH of an ACTIVE page sets MATCH_PEND and takes its actions; CROSS_LAUNCH launches the pending
cross-halt or reports LAUNCH_REFUSED. (R38, R219, R225, R252, R254, R257, R258, R259, R260, R263, R264, R265) -/
def Obligations.CoreHaltsAndComparators : Prop :=
  ∀ (s : State) (l : Lane) (core : Fin 64) (off : BitVec 12) (w : W32) (index : Fin 12) (action : Fin 8) (upset : Nat), (s.die l).Up →
    let refused (d : Die) (b : W32) : Die := d.onPart fun p => p.accessErrOp (corePage core) (coreAddr core + 0x40) b true 2
    let halt (d : Die) (cause : Nat) : Die := match d.part.fld (coreAddr core + 0x44) 0 3 with
      | 0 => ((d.setDebug core 1).onPart fun p =>
          { p.setFld (coreAddr core + 0x44) 3 3 cause with out := p.out ++ [Out.haltReq core] }).haltBegin core
      | 4 => (d.onPart fun p => if p.bit (coreAddr core + 0x44) 6 then p
          else (p.setBit (coreAddr core + 0x44) 6 true).setFld (coreAddr core + 0x44) 3 3 0).raiseCause core cause
      | _ => d.raiseCause core cause
    DieDoes s (.coreHalt l core) l (fun d => d.commanded (coreAddr core + 0x40) 0x10 fun d =>
      if d.part.active (corePage core) then halt d 1 else refused d 0x10) ∧
    DieDoes s (.coreResume l core) l (fun d => d.commanded (coreAddr core + 0x40) 0x20 fun d =>
      if d.part.active (corePage core) = true ∧ d.debug core = 3 then
        ((d.setDebug core 4).haltedMap core false).onPart fun p => { p with out := p.out ++ [Out.resumeReq core] }
      else if d.part.active (corePage core) = true ∧ d.debug core = 4 then d
      else refused d 0x20) ∧
    DieDoes s (.coreHalted l core) l (fun d =>
      if d.debug core ≠ 1 then d
      else
        let d := if d.tracing core then
            d.stamped core true ([0x0F] ++ leBytes 1 (d.part.fld (coreAddr core + 0x44) 3 3) ++ leBytes 1 0xFF)
          else d
        (d.setDebug core 2).onPart fun p => { p with out := p.out ++ [Out.drainReq core] }) ∧
    DieDoes s (.coreDrained l core) l (fun d =>
      if d.debug core ≠ 2 then d
      else
        let d := { d with part := (d.part.stageDone (corePage core) 0 core).2 }
        ((d.setDebug core 3).haltedMap core true).onPart fun p => (p.setBit 0x14007C 3 true).event (corePage core)) ∧
    DieDoes s (.coreRunning l core) l (fun d =>
      if d.debug core ≠ 4 then d
      else
        let a := coreAddr core
        let c := d.core core
        let again := d.part.bit (a + 0x44) 6
        let cause := d.part.fld (a + 0x44) 3 3
        let d := d.onPart fun p =>
          (p.setNum64 (a + 0x60) (min 0xFFFFFFFFFFFFFFFF (p.num64 (a + 0x60) + (p.now - c.haltSince)))).setBit (a + 0x44) 6 false
        let d := (d.setCore core { c with resumed := true }).setDebug core 0
        if again then halt d cause else d) ∧
    exec (.comparatorWrite l core off w) s =
      exec (.registerWrite (.die l) (BitVec.ofNat 24 (coreAddr core + off.toNat)) w) s ∧
    (∀ (r : RegSpec) (i j : Nat), off.toNat % 4 = 0 → compIndex off.toNat = some j →
      specOf false (0x100 + core) off.toNat = some (r, i) →
      DieDoes s (.comparatorWrite l core off w) l (fun d => d.admitted (coreAddr core + off.toNat) w fun d =>
        let a := coreAddr core + off.toNat
        let old := d.part.num a
        if r.fields.any (fieldRefused ((d.part.hdr (0x100 + core)).lock) (d.staticFixed a) old w.toNat) then
          d.onPart fun p => p.accessErr (0x100 + core) a w true
        else
          let d := if mergeWord r old w.toNat = old then d else d.onPart fun p => p.setNum a (mergeWord r old w.toNat)
          if d.part.active (0x100 + core) then
            let a := coreAddr core
            (d.setCore core { d.core core with compOut := (d.core core).compOut + 1 }).onPart fun p =>
              let (x, y, c) := if j < 8
                then (p.num64 (a + 0x80 + 0x10 * j), 0, p.fld (a + 0x88 + 0x10 * j) 0 10)
                else (p.num64 (a + 0x100 + 0x20 * (j - 8)), p.num64 (a + 0x108 + 0x20 * (j - 8)),
                  p.fld (a + 0x110 + 0x20 * (j - 8)) 0 10)
              { p.setBit (a + 0x44) 10 false with out := p.out ++ [Out.compWr core j x y c] }
          else d.onPart fun p => p.setBit (coreAddr core + 0x44) 10 false)) ∧
    DieDoes s (.compAck l core) l (fun d => match (d.core core).compOut with
      | 0 => d
      | n + 1 =>
        let d := d.setCore core { d.core core with compOut := n }
        if n = 0 ∧ d.part.active (corePage core) = true then d.onPart fun p => p.setBit (coreAddr core + 0x44) 10 true else d) ∧
    DieDoes s (.compMatch l core index action) l (fun d =>
      if d.part.active (corePage core) = false then d
      else
        let d := d.onPart fun p => p.setBit (coreAddr core + 0x68) index true
        let d := if action.val.testBit 1 then
            d.bufTrigger (if index.val < 8 then 1 else 2) core (if index.val < 8 then index.val else index.val - 8) else d
        let d := if action.val.testBit 0 then
            let cause := if index.val < 8 then 2 else 3
            match d.debug core with
            | 0 => ((d.onPart fun p => p.setFld (coreAddr core + 0x44) 3 3 cause).haltBegin core).haltStop core index
            | 1 => (d.raiseCause core cause).haltStop core index
            | _ => d
          else d
        if action.val.testBit 2 = true ∧ d.meander.cross = none then
          d.onMeander fun m => { m with cross := some (core, index) }
        else d) ∧
    DieDoes s (.crossLaunch ⟨l, upset⟩) l (fun d =>
      let d := d.onBore fun b => { b with upset := b.upset ||| upset }
      match d.meander.cross with
      | none => d
      | some (k, i) =>
        let d := d.onMeander fun m => { m with cross := none }
        let scope := d.part.fld 0x140070 0 2
        let cause := if scope = 3 then 2 else if d.partition = 0xFFFF then 3 else if d.part.active 3 = false then 4 else 0
        if cause = 0 then
          let x := d.makeEvent 9 1 scope 0xFFFFFFFF 0 (d.part.fld 0x140070 8 8 + 256 * k + 65536 * i) 0
          if scope = 0 then
            let v := x.2.copiesVote 3 0 x.1
            if v.1 then v.2.boreAccept x.1 false else v.2
          else x.2.boreSend x.1
        else d.onPart fun p => p.raise 0x140 16
          { unit := k, opCode := 2, detail := leBytes 1 k ++ leBytes 1 i ++ leBytes 1 cause })

/-- For both ends of a lane, with the die up or the aggregator ready: a TRAIN on a lane that is not OFF is counted,
refused for its LENGTH, VERSION or ROLE, and else one half of TRAINED in TRAINING and in UP takes the link down with
cause 4; at the aggregator a well formed one of a child that is no die, or is beyond the limits, is refused with
TOPOLOGY and the child remembered as refused; TRAIN_SEND in TRAINING after lock sends the TRAIN cell and counts it;
LINK_LOCK marks lock in TRAINING, but not at the aggregator while REF156 is lost; LINK_LOSS comes at its instant,
counts the FEC codewords and restarts the link; TRAIN_TIMEOUT in TRAINING carries time to 20 ms after training began
and restarts it; RETRAIN restarts it with cause 5; CRC_ERR on a lane that is not OFF counts the codewords and the cell
and is LOSS with cause 3 at ERR_BURST_LIMIT of them within 1 ms; a cell half sent as UP is left goes back to its queue
or is lost. (R15, R38, R271, R276, R286, R289, R395) -/
def Obligations.TributaryTrainsRunsAndFalls : Prop :=
  ∀ (s : State) (l : Lane) (h : CellHdr) (role version port id cause fixed bad at_ : Nat) (refuse : Option Nat),
    let link (p : Part) (lane : Option Nat) : Nat := p.fld (linkBase lane + 0x44) 0 2
    let train (lane : Option Nat) (peer : Nat) (p : Part) (t : Port) : Part × Port :=
      if link p lane = 0 then (p, t)
      else
        let p := rxCount p lane
        if h.len ≠ 8 then (cellRefused p lane 12 h.queue h.len 3, t)
        else if version ≠ 1 ∨ role ≠ peer then (cellRefused p lane 12 h.queue h.len 4, t)
        else match link p lane with
        | 1 => linkTrained p { t with trainGot := some (port, id) } lane
        | 2 => linkDown p t lane 4
        | _ => (p, t)
    let send (lane : Option Nat) (role port id : Nat) (p : Part) (t : Port) : Part × Port :=
      if link p lane = 1 ∧ p.bit (linkBase lane + 0x44) 2 = true then
        let p := p.inc64 (linkBase lane + 0x60) 1
        let p := match lane with | none => p.event 0x31 | some _ => p
        linkTrained { p with out := p.out ++ [.train lane (leBytes 1 role ++ [1] ++ leBytes 1 port ++ [0] ++ leBytes 4 id)] }
          { t with trainSent := min 3 (t.trainSent + 1) } lane
      else (p, t)
    let lock (lane : Option Nat) (p : Part) (t : Port) : Part × Port :=
      if link p lane = 1 ∧ ¬ (lane ≠ none ∧ p.disc.refLoss = true) then (p.setBit (linkBase lane + 0x44) 2 true, t) else (p, t)
    let restart (lane : Option Nat) (cause : Nat) (p : Part) (t : Port) : Part × Port := match link p lane with
      | 1 => (((startTraining p t lane).1).inc (linkBase lane + 0x4C), (startTraining p t lane).2)
      | 2 => if cause = 6 then (p, t) else linkDown p t lane cause
      | _ => (p, t)
    let timeout (lane : Option Nat) (p : Part) (t : Port) : Part × Port :=
      if link p lane = 1 then restart lane 6 (p.reach (t.trainSince + 20000000)) t else (p, t)
    let codewords (lane : Option Nat) (p : Part) : Part :=
      (p.incBy (linkBase lane + 0x58) fixed).incBy (linkBase lane + 0x5C) bad
    let crc (lane : Option Nat) (p : Part) (t : Port) : Part × Port :=
      let p := codewords lane p
      if link p lane = 0 then (p, t)
      else
        let p := (rxCount p lane).inc (linkBase lane + 0x54)
        let ts := t.crcTimes.filter (fun x => decide (p.now < x + 1000000)) ++ [p.now]
        if p.fld (linkBase lane + 0x84) 0 16 ≤ ts.length then restart lane 3 p { t with crcTimes := [] }
        else (p, { t with crcTimes := ts })
    let dieAct (d : Die) (f : Part → Port → Part × Port) : Die :=
      let e := d.onLane f
      if d.part.linkUp none = true ∧ e.part.linkUp none = false then
        let x := cutSending e.part e.port none
        ({ e with part := x.2.1, port := x.2.2 }).cellLost x.1
      else e
    let aggAct (g : Agg) (f : Part → Port → Part × Port) : Agg :=
      let e := g.onLane l f
      let e := if g.laneUp l = true ∧ e.laneUp l = false then e.onLane l fun p t => (cutSending p t (some l.val)).2 else e
      if g.laneUp l = true ∧ e.laneUp l = false then e.laneWent l
      else if g.laneUp l = false ∧ e.laneUp l = true then e.laneCame l else e
    ((s.die l).Up →
      DieDoes s (.train (.die l) ⟨h, version⟩ role port id refuse) l (fun d => dieAct d (train none 1)) ∧
      DieDoes s (.trainSend (.die l)) l (fun d => d.onLane (send none 0 d.part.slot d.part.gdid)) ∧
      DieDoes s (.linkLock (.die l)) l (fun d => d.onLane (lock none)) ∧
      DieDoes s (.linkLoss (.die l) cause fixed bad at_) l (fun d => dieAct (d.onPart fun p => codewords none (p.reach at_)) (restart none cause)) ∧
      DieDoes s (.trainTimeout (.die l)) l (fun d => d.onLane (timeout none)) ∧
      DieDoes s (.retrain (.die l)) l (fun d => d.commanded 0x31040 1 fun d => dieAct d (restart none 5)) ∧
      DieDoes s (.crcErr (.die l) fixed bad) l (fun d => dieAct d (crc none))) ∧
    (s.agg.phase = .ready →
      AggDoes s (.train (.agg l) ⟨h, version⟩ role port id refuse) (fun g =>
        let cause := match refuse with | some c => c | none => if role = 1 then 3 else 0
        if link g.part (some l.val) ≠ 0 ∧ h.len = 8 ∧ version = 1 ∧ role < 2 ∧ cause ≠ 0 then
          (g.onPart fun p => (rxCount p (some l.val)).raise 1 16
            { unit := l, detail := leBytes 1 cause ++ leBytes 4 (if role = 0 then l.val else id) }).onConf fun c =>
              { c with refused := sput false c.refused l true }
        else
          let g := aggAct g (train (some l.val) 0)
          if g.laneUp l then (g.cellAlive l).onConf fun c => { c with refused := sput false c.refused l false } else g) ∧
      AggDoes s (.trainSend (.agg l)) (fun g => aggAct g (send (some l.val) 1 l g.trainId)) ∧
      AggDoes s (.linkLock (.agg l)) (fun g => aggAct g (lock (some l.val))) ∧
      AggDoes s (.linkLoss (.agg l) cause fixed bad at_) (fun g =>
        aggAct (g.onPart fun p => codewords (some l.val) (p.reach at_)) (restart (some l.val) cause)) ∧
      AggDoes s (.trainTimeout (.agg l)) (fun g => aggAct g (timeout (some l.val))) ∧
      AggDoes s (.retrain (.agg l)) (fun g => g.commanded (tribAddr l + 0x40) 1 fun g => aggAct g (restart (some l.val) 5)) ∧
      AggDoes s (.crcErr (.agg l) fixed bad) (fun g => aggAct g (crc (some l.val))))

/-- For both ends of a lane: COMPRESSION_DONE, while SLUICE is not FAULTED, ends the oldest job as a block, as the
original, or for want of space, giving a record that fits nowhere back to the rule of its producer; CELL_SEND on a
lane that is UP frees the lane, takes the head of the queue the scheduler picks, reads it (an uncorrectable word
discards its record), judges the transit of a step record, stamps a time cell, numbers the cell and sends it, and does
nothing on a lane that is not UP; GATE_CYCLE_BOUNDARY carries time to the next 125 us multiple not yet taken, samples
every queue, and brings a list armed before it into force; GCL_ENTRY_ADVANCE carries time to the end of the present
entry unless it is the last; GCL_SWITCH_ARM is refused with ACCESS_ERR while a switch is pending or when the staged
durations are not all positive with sum 125,000, and sets the pending bit otherwise. (R38, R41, R266, R267, R271,
R277, R279, R282, R283, R284, R285, R459) -/
def Obligations.CompressionSchedulingAndGates : Prop :=
  ∀ (s : State) (l : Lane) (resid : Nat) (ecc : Ecc),
    let cycle (lane : Option Nat) (p : Part) (t : Port) : Part × Port :=
      let b := schedBase lane
      let k := p.now / 125000 * 125000
      let at_ := if t.cycleAt = some k then k + 125000 else k
      let p := p.reach at_
      let p := (List.range 11).foldl (fun p q =>
        let p := p.setNum (b + 0x144 + 0x10 * q) (t.depth q)
        p.setNum (b + 0x148 + 0x10 * q) (match t.queue q with
          | [] => 0
          | c :: _ => min 0xFFFFFFFF ((p.t - c.enq) / 4294967296))) p
      let p := if p.bit (b + 0x12C) 1 = true ∧ t.gclAt < at_ * 4294967296 then
          let p := (List.range 64).foldl (fun p e => p.wr (b + 0x300 + 4 * e) (p.rd (b + 0x200 + 4 * e))) p
          ((p.setFld (b + 0x12C) 8 7 (p.fld (b + 0x128) 0 7)).setBit (b + 0x12C) 1 false).setBit (b + 0x12C) 2
            (!p.bit (b + 0x12C) 2)
        else p
      (p, { t with cycleAt := some at_ })
    let advance (lane : Option Nat) (p : Part) : Part :=
      match gclFrom ((List.range (p.fld (schedBase lane + 0x12C) 8 7)).map fun e => p.num (schedBase lane + 0x300 + 4 * e))
        (p.now % 125000) with
      | (_ :: _ :: _, left) => p.reach (p.now + left)
      | _ => p
    let arm (lane : Option Nat) (p : Part) (t : Port) : Part × Port :=
      let b := schedBase lane
      let ds := (List.range (p.fld (b + 0x128) 0 7)).map fun e => p.num (b + 0x200 + 4 * e) % 16777216
      if p.bit (b + 0x12C) 1 = false ∧ ds.sum = 125000 ∧ 0 ∉ ds then
        (p.setBit (b + 0x12C) 1 true, { t with gclAt := p.time.toNat })
      else (p.accessErr (b / 0x1000) (b + 0x12C) 1 true, t)
    let sent (lane : Option Nat) (p : Part) (t : Port) : Option Cell × Part × Port :=
      if p.linkUp lane = false then (none, p, t)
      else
        let (p, t) := laneSettle (match t.sending with | none => p | some x => p.reachAt x.until_) t lane
        match pickQueue p t lane with
        | none => (none, p, t)
        | some (q, t') => match t.queue q with
          | [] => (none, p, t)
          | c :: cs => match queueRead p lane q ecc with
            | (.ue, p) => (some c, p, t.setQueue q (((t.queue q).drop 1).dropWhile fun c => !c.first))
            | (_, p) =>
              let (p, c) := stepTransit p c resid
              let c := stampCell p c
              let a := schedBase lane + 0x14C + 0x10 * q
              let p := p.setNum a (max (p.num a) (min 0xFFFFFFFF ((p.t + resid * 65536 - c.enq) / 4294967296)))
              (none, { p with out := p.out ++ [.cell lane c resid (c.frame q (sget 0 t.txSeq q) resid)] },
                { t'.setQueue q cs with
                  txSeq := sput 0 t'.txSeq q ((sget 0 t'.txSeq q + 1) % 65536)
                  sending := some ⟨q, c, p.t + resid * 65536 + (c.bytes * 4294967296 + 24) / 25⟩
                  deficits := if cs.isEmpty then sput 0 t'.deficits q 0 else t'.deficits })
    ((s.die l).Up →
      DieDoes s (.compressionDone l) l (fun d =>
        if d.part.pstate 0x30 = .faulted then d
        else
          let (p, t, left) := jobDone d.part d.port
          let d := { d with part := p, port := t }
          match left with
          | none => d
          | some rc => match rc.kind with
            | .window => d.retain rc
            | .snapshot =>
              let id := match d.bore.cut with | some c => c.id | none => d.part.num 0x308C
              let rest := match d.bore.cut with | some c => c.parts | none => []
              (d.onBore fun b => { b with cut := some ⟨id, rc :: rest⟩ }).onPart fun p => p.setBit 0x3044 5 true
            | .trace => (d.onMeander fun m => { m with upload := rc :: m.upload }).onPart fun p =>
                (p.setBit 0x140048 3 true).setBit 0x14007C 2 false
            | _ => d.recordLost rc) ∧
      DieDoes s (.cellSend (.die l) ⟨resid, ecc⟩) l (fun d =>
        let n := d.part.out.length
        let x := sent none d.part d.port
        let d := { d with part := x.2.1, port := x.2.2 }
        match x.1 with
        | some c => (match c.body with
            | .part rc _ => if rc.kind = RecKind.step then d.onPart fun p => p.stageDrop 0x31 0 0 else d
            | _ => d).cellLost (some c)
        | none => match d.part.out.drop n with
          | [.cell _ c r _] => match c.body with
            | .timeDelay e t3 => d.timeDelaySent e t3 r
            | _ => d
          | _ => d) ∧
      DieDoes s (.gateCycleBoundary (.die l)) l (fun d => d.onLane (cycle none)) ∧
      DieDoes s (.gclEntryAdvance (.die l)) l (fun d => d.onPart (advance none)) ∧
      DieDoes s (.gclSwitchArm (.die l)) l (fun d => d.commanded 0x3012C 1 fun d => d.onLane (arm none))) ∧
    (s.agg.phase = .ready →
      AggDoes s (.cellSend (.agg l) ⟨resid, ecc⟩) (fun g => g.onLane l fun p t => (sent (some l.val) p t).2) ∧
      AggDoes s (.gateCycleBoundary (.agg l)) (fun g => g.onLane l (cycle (some l.val))) ∧
      AggDoes s (.gclEntryAdvance (.agg l)) (fun g => g.onPart (advance (some l.val))) ∧
      AggDoes s (.gclSwitchArm (.agg l)) (fun g => g.commanded (tribAddr l + 0x12C) 1 fun g => g.onLane l (arm (some l.val))))

/-- For both ends of a lane, after the checks every received cell has: a REG_REQ or BULK cell is performed when its answer
has room, kept behind others otherwise, and refused with cause 5 when its store is full; REG_REQ_PERFORM performs the
first waiting one once its answer has room; SELFTEST_REQ_CELL of an engine that exists requests its self-test (one
that carries the dispute tag in force is merged) and is refused with cause 4 otherwise; a RECORD_CELL opens, continues
or ends the record of its queue and discards it with causes 1, 2 and 4 otherwise, a FIRST inside an open record
opening the next; REG_RESP answers the request of its id or counts an orphan; BULK_ACK adds to the load of its id and
ends it at the last; BORE_NOTE is recorded (its kind is a free value, the spec states none), joins or leaves the job
on an executed JOB_START or JOB_ABORT, freezes on STOP, and a timed one is set beside its acknowledgement. (R187,
R271, R272, R274, R275, R289, R291, R305, R309, R375) -/
def Obligations.CellsAreCheckedAndTaken : Prop :=
  ∀ (s : State) (l : Lane) (h : CellHdr) (id op nwords addr target offset engine tag status fill time : Nat) (data : List W32)
      (bs : List Byte) (es : List Ecc) (end_ : Bool) (e : BoreEvent),
    let request (r : Bool × Die) (c : Cell) (es : List Ecc) : Die :=
      if r.1 = false then r.2
      else if r.2.port.waiting = [] ∧ r.2.respRoom c = true then r.2.perform c es
      else if 65536 < ((r.2.port.waiting.filter fun x => x.typ == c.typ).map Cell.bytes).sum + c.bytes then
        r.2.refuseCell h c.typ 5
      else { r.2 with port := { r.2.port with waiting := r.2.port.waiting ++ [c] } }
    ((s.die l).Up →
      DieDoes s (.regReq l h id op nwords addr data es) l (fun d => request (d.cellIn h 8 none)
        { typ := 8, len := h.len, body := .regReq id op nwords addr data } es) ∧
      DieDoes s (.bulk l h id target end_ offset bs) l (fun d => request (d.cellIn h 10 none)
        { typ := 10, len := h.len, body := .bulk id target end_ offset bs } []) ∧
      DieDoes s (.regReqPerform l es) l (fun d => match d.port.waiting with
        | [] => d
        | c :: cs => if d.respRoom c then ({ d with port := { d.port with waiting := cs } }).perform c es else d) ∧
      DieDoes s (.selftestReqCell l h engine tag) l (fun d =>
        let x := d.cellIn h 7 (some 8)
        if x.1 = false then x.2
        else if 640 ≤ engine then x.2.refuseCell h 7 4
        else if x.2.disputed = true ∧ x.2.part.fld 0x8044 16 16 = tag then x.2
        else x.2.trigger { engine := engine, trigger := 2, start := x.2.now })) ∧
    (s.agg.phase = .ready →
      AggDoes s (.recordCell l h bs fill) (fun g => Agg.received (g.cellIn l h 1 none) fun g =>
        let take (g : Agg) (sofar : List Byte) (comp : Bool) : Agg :=
          if 65536 < sofar.length then g.reassembly l h 4
          else
            let t := g.port l
            if h.last then
              (g.setPort l { t with partials := sput none t.partials h.queue none }).recordDone l h.queue comp sofar fill
            else g.setPort l { t with partials := sput none t.partials h.queue (some (sofar, 0, comp)) }
        match sget none (g.port l).partials h.queue with
        | none => if h.first then take g bs h.compressed else g.reassembly l h 1
        | some (sofar, _, comp) =>
          if h.first then take (g.reassembly l h 2) bs h.compressed else take g (sofar ++ bs) comp) ∧
      AggDoes s (.regResp l h id status nwords data) (fun g =>
        Agg.received (g.cellIn l h 9 (some (4 + 4 * data.length))) fun g =>
          if 2 < status then g.refuseCell l h 9 4
          else match g.est.reqs.find? fun q => q.lane == some l.val && q.id == id with
          | none => g.onPart fun p => p.inc 0x406C
          | some q => g.regAnswer q status nwords data) ∧
      AggDoes s (.bulkAck l h id status offset) (fun g => Agg.received (g.cellIn l h 11 (some 8)) fun g =>
        if 3 < status then g.refuseCell l h 11 4
        else match g.loadOf l id with
        | none => g
        | some (i, k) => match g.desc i k with
          | none => g.onEst fun e => { e with loads := e.loads.filter fun x => !(x.1 == l && x.2.1 == id) }
          | some d =>
            let len := dget d.bytes 0x24 4
            let size := min 2040 (len - (offset - dget d.bytes 0x20 4))
            let d' := { d with
              left := d.left - 1
              refused := if d.refused = 0 then status else d.refused
              written := if status = 0 then d.written + size else d.written }
            if d'.left = 0 ∧ d'.sent = len then
              (g.onEst fun e => { e with loads := e.loads.filter fun x => !(x.1 == l && x.2.1 == id) }).descEnd i d'
                (if d'.refused = 0 then 0 else 6) d'.written d'.refused
            else g.putDesc i d') ∧
      AggDoes s (.boreNote l h e time status) (fun g => Agg.received (g.cellIn l h 5 (some 48)) fun g =>
        if 6 ≤ status % 128 then g.refuseCell l h 5 4
        else
        let (k, p) := g.part.draw32
        let g := ({ g with part := p }).recStore 16
          { time := ({ g with part := p } : Agg).now, port := l, kind := k.toNat % 256, gdid := ({ g with part := p } : Agg).peer l
            bytes := e.bytes ++ leBytes 8 time ++ leBytes 1 status ++ [0, 0, 0, 0, 0, 0, 0] }
        let executed := status % 128 = 0 ∨ status % 128 = 5
        let g := if executed ∧ e.typ = 7 then
            (if (sget none g.conf.member l).isSome && (sget none g.conf.member l).map (fun x => x.1) != some e.arg0 then g.leave l
             else g).join l e.arg0
          else if executed ∧ e.typ = 8 then g.leave l
          else g
        let g := if executed ∧ e.typ = 1 then g.freezeCause 2 l else g
        if e.exec ≠ 0 then g.pathTold 0 l e.seq e.source status else g))

/-- For every ready aggregator: STEP_RECORD_RECEIVE of a record that is not 64 bytes, whose CRC fails, whose die is not a
member of its job, or while CONFLUENCE takes no input changes nothing; one whose step has an open context is merged
there once per lane; one whose context has closed is counted after close; one that finds neither opens a context while
merging runs, with CLOSE its own time plus CLOSE_NS. CLOSE_EXPIRED of an open context carries time to its CLOSE and
closes it cut, unless the page is FAULTED. SKETCH_RECEIVE of a frame that stands joins its segment to those kept of
that node; the whole sketch is then recorded, checked, and merged or rejected whole, and a node beyond the 32 children
is refused with TOPOLOGY. SKETCH_SEND, unless the page is FAULTED, reads the oldest merge out (a bin whose residue
fails is left out as a failing child) and sends it: up the tree as segments, or at the root through the straggler
history to the host, marked LATE past a deadline. (R22, R41, R290, R291, R292, R296, R297, R298, R299, R300, R310,
R311) -/
def Obligations.StepRecordsAndSketchesMerge : Prop :=
  ∀ (s : State) (l : Lane) (bs : List Byte) (h : EthHdr) (job step off total hostNs : Nat) (bad : Option (Nat × Nat)),
    s.agg.phase = .ready →
    let framed (g : Agg) (b : TreeBody) (f : Agg → Agg) : Agg := if (g.treeIn h b).1 then f (g.treeIn h b).2 else (g.treeIn h b).2
    AggDoes s (.stepRecordReceive l bs) (fun g =>
      if bs.length = 64 ∧ crcOk bs = true ∧ l.val ∈ g.membersOf (srField bs 8 4) ∧ g.mergeTakes = true then
        let take (c : MergeCtx) (g : Agg) : Agg :=
          if l.val ∈ c.got then g else g.ctxPut c { c with sk := g.srMerge l bs c.sk, got := c.got ++ [l.val] }
        match g.ctxOf (srField bs 8 4) (srField bs 0xC 4) with
        | some c => take c g
        | none => match g.conf.closed.find? fun c => c.job == srField bs 8 4 && c.step == srField bs 0xC 4 with
          | some c => g.afterClose c (srField bs 0 4)
          | none =>
            if g.merging then
              let r := g.ctxOpen (srField bs 8 4) (srField bs 0xC 4) (srField bs 6 2) (srField bs 0x10 8 + g.part.num 0x105C)
              take r.1 r.2
            else g
      else g) ∧
    AggDoes s (.closeExpired job step) (fun g => match g.ctxOf job step with
      | none => g
      | some c => if g.part.pstate 1 = .faulted then g else (g.reach c.close).ctxClose c true) ∧
    AggDoes s (.sketchReceive h ⟨off, total, bs⟩) (fun g => framed g (.sketch off total bs) fun g =>
      let beyond := g.interior ∧ g.children.length = 32 ∧ (∀ c ∈ g.children, c.2 ≠ h.node) ∧
        (∀ j ∈ g.conf.jobs, ∀ x ∈ j.children, x.1 ≠ h.node)
      if beyond then g.onPart fun p => p.raise 1 16 { detail := [1] ++ leBytes 4 h.node }
      else
        let z := sget {} g.conf.sketchParts h.node
        let ps := (if z.total = total ∧ ∀ x ∈ z.parts, x.1 ≠ off then z.parts else []) ++ [(off, bs)]
        match joined total (ps.length + 1) 0 ps with
        | none => g.onConf fun c => { c with sketchParts := sput {} c.sketchParts h.node { total := total, parts := ps } }
        | some all =>
          let g := (g.onConf fun c => { c with sketchParts := sput {} c.sketchParts h.node {} }).sketchLog all
          if g.mergeTakes = false then g
          else
            let k := readSketch all
            let r := g.sketchCheck k all
            let g := r.2
            if ∀ x ∈ g.childrenOf k.job, x.1 ≠ h.node then g
            else
              let dies := (((g.childrenOf k.job).filter fun x => x.1 == h.node).map (·.2)).sum
              let add (a : Sketch) : Sketch :=
                if r.1 then a.merge k else { a with expected := a.expected + dies, missingNodes := a.missingNodes + 1 }
              let take (c : MergeCtx) (g : Agg) : Agg :=
                if h.node ∈ c.got then g else g.ctxPut c { c with sk := add c.sk, got := c.got ++ [h.node] }
              match g.ctxOf k.job k.step with
              | some c => take c g
              | none => match g.conf.closed.find? fun c => c.job == k.job && c.step == k.step with
                | some c => g.afterClose c h.node
                | none =>
                  if g.merging then
                    let r := g.ctxOpen k.job k.step k.partition (g.now + g.part.num 0x105C)
                    take r.1 r.2
                  else g) ∧
    AggDoes s (.sketchSend ⟨hostNs, bad⟩) (fun g => match g.conf.merged with
      | [] => g
      | m :: ms =>
        if g.part.pstate 1 = .faulted then g
        else
          let r := (g.onConf fun c => { c with merged := ms }).sketchReadout m bad
          let m := r.1
          let g := r.2
          let (l1, p) := g.part.stageDone 1 (if g.interior then 1 else 0) 0
          let (l2, p) := p.stageDone 1 2 0
          let g := { g with part := p.event 1 }
          let k := { m with late := m.late || l1 || l2 }
          let lvl := if g.interior then 2 else 1
          if g.isRoot then
            let g := g.stragStep k
            let toHost := g.gateOpen && g.part.bit 0x4090 6
            let g := if toHost then (g.onPart fun p => p.stageStart 4 0 0 (k.step % 65536) p.now).reach (g.now + hostNs) else g
            let (l3, p) := g.part.stageDone 4 0 0
            let g := { g with part := p }
            let k := { k with late := k.late || l3 }
            let out := k.bytes g.nodeId lvl (some (k.rootBlock (g.part.fld 0x1070 0 8) (g.part.num 0x1074)))
            (g.ownRecord { time := g.now, port := 0xFF, kind := 8, bytes := out, gdid := g.nodeId }).2
          else
            let out := k.bytes g.nodeId lvl none
            (g.sketchLog out).segments (g.part.num 0x104C) out.length (out.length / 1440 + 1) 0 out) ∧
    (∀ (g : Agg) (k : Sketch), g.sketchReadout k bad = match k.firstBin with
      | none => (k, g)
      | some x =>
        let r := g.part.takeInject 1 4
        let g := { g with part := r.2 }
        match if r.1 then some x else bad with
        | none => (k, g)
        | some (m, b) =>
          let n := match k.metrics[m]? with | some q => sget 0 q.bins b | none => 0
          if n = 0 then (k, g) else (k.dropBin m b, g.residueBad (m, (n + 1) % 3, n % 3) r.1))

/-- For every ready aggregator: DRIFT_PERIOD with drift enabled in the tray role carries time to the next period and
begins the work, or marks it late behind unfinished scoring, and does nothing otherwise; DRIFT_SCORING_DONE of scoring
that runs scores every resident class and begins the work that waits; EXPEL_RETRY asks again 600 s later for a die
left in OBSERVE with an entity raised; EXPEL_REQ is judged by the budget holder and answered; EXPEL_RESP marks the die
EXPEL_REC or OBSERVE; BUDGET_MINUTE carries time to the next minute, zeroes the oldest bucket and clears OVER at three
quarters; ALIVE_EXPIRED carries time DISPUTE_SILENT_NS past the last sign of the path and drops its indication;
DISAGREE_EXPIRED disputes a die whose paths have differed for DISAGREE_NS; DIE_DISPUTE_CLR with the tag in force
clears the dispute and is refused with ACCESS_ERR otherwise; REC_CLR clears EXPEL_REC and OBSERVE. (R302, R303, R304,
R305, R306, R307, R308, R311, R378) -/
def Obligations.DriftExpulsionAndPathComparison : Prop :=
  ∀ (s : State) (l : Lane) (h : EthHdr) (gdid partition entity score result cause : Nat) (tag : W16) (c : Fin 3),
    s.agg.phase = .ready →
    let framed (g : Agg) (b : TreeBody) (f : Agg → Agg) : Agg := if (g.treeIn h b).1 then f (g.treeIn h b).2 else (g.treeIn h b).2
    AggDoes s .driftPeriod (fun g =>
      if g.part.bit 0x1040 1 = true ∧ g.interior = false then
        let n := g.part.num 0x1078 * 1000000
        let g := g.reach ((g.now / n + 1) * n)
        if g.conf.drift.scoring then g.onDrift fun x => { x with late := true, waiting := x.waiting + 1 } else g.driftBegin
      else g) ∧
    AggDoes s .driftScoringDone (fun g =>
      if g.conf.drift.scoring = true then
        let g := (List.range 8).foldl (fun g c =>
          if g.driftResident c then
            (g.entities c).foldl (fun g e => g.scoreEntity c (hdrAt g.conf.drift.model (g.driftForce c)) e) g
          else g) g
        let g := g.onDrift fun x => { x with scoring := false, late := false }
        if g.conf.drift.waiting = 0 then g else (g.onDrift fun x => { x with waiting := x.waiting - 1 }).driftBegin
      else g) ∧
    AggDoes s (.expelRetry l) (fun g =>
      match (((List.range 5).map g.entities).flatten.filter fun e => g.entityDie e == some l.val).find? fun e =>
        (sget {} g.conf.drift.ents e).raised with
      | some e =>
        if g.part.bit (dieState l) 6 = true ∧ g.part.bit (dieState l) 5 = false then
          let sc := match (sget {} g.conf.drift.ents e).score with | some (v, _) => v | none => 0
          (g.reach (sget 0 g.conf.drift.askedAt l + 600000000000)).expelAsk l e sc
        else g
      | none => g) ∧
    AggDoes s (.expelReq h gdid partition entity score) (fun g => framed g (.expelReq gdid partition entity score) fun g =>
      if g.holdsBudget then
        let r := g.budgetJudge gdid partition
        r.2.2.ethSend h.node (.expelResp gdid r.1 r.2.1)
      else g) ∧
    AggDoes s (.expelResp h gdid result cause) (fun g => framed g (.expelResp gdid result cause) fun g =>
      match (List.range 16).find? fun l => g.peer l == gdid with
      | none => g
      | some l =>
        let g := g.onConf fun c => { c with drift := { c.drift with askedAt := sput 0 c.drift.askedAt l g.now } }
        g.onPart fun p => p.setBit (dieState l) (if result = 1 then 5 else 6) true) ∧
    AggDoes s .budgetMinute (fun g =>
      let g := g.reach ((g.now / 60000000000 + 1) * 60000000000)
      (List.range 256).foldl (fun g i =>
        let a := 128 * i
        if (Mem.rdLE g.conf.budget (a + 2) 2).testBit 0 = false then g
        else
          let g := g.onConf fun c => { c with budget := Mem.wrLE c.budget (a + 8 + 2 * bucketOf g.now) 2 0 }
          if g.budgetUsed a ≤ 3 * g.budgetCap a / 4 then g.setOver a false else g) g) ∧
    AggDoes s (.aliveExpired l .data) (fun g =>
      (g.reach (sget 0 g.conf.cellAt l + g.part.num 0x1088)).aliveSet l false) ∧
    AggDoes s (.aliveExpired l (.bore c)) (fun g =>
      let g := (g.reach (sget 0 g.conf.boreAt (3 * l + c.val) + g.part.num 0x1088)).onConf fun x => { x with
        boreLive := sput 0 x.boreLive l (sget 0 x.boreLive l -
          (if (sget 0 x.boreLive l).testBit c.val then 2 ^ c.val else 0)) }
      g.aliveSet l (g.part.bit (dieState l) 1)) ∧
    AggDoes s (.disagreeExpired l) (fun g => match sget none g.conf.differSince l with
      | none => g
      | some t =>
        let g := g.reach (t + g.part.num 0x108C)
        if g.part.bit (dieState l) 1 = g.part.bit (dieState l) 2 then g
        else g.disputeRaise l (if g.part.bit (dieState l) 1 then 2 else 1)) ∧
    AggDoes s (.dieDisputeClr l tag) (fun g =>
      g.admitted (dieState l) (BitVec.ofNat 32 (0x10 + 65536 * tag.toNat)) fun g =>
        if g.part.bit (dieState l) 3 = true ∧ g.part.fld (dieState l) 16 16 = tag.toNat then
          let g := g.onPart fun p => p.setBit (dieState l) 3 false
          g.onConf fun c => { c with differSince := sput none c.differSince l (if g.pathsDiffer l then some g.now else none) }
        else g.onPart fun p => p.accessErr 1 (dieState l) (BitVec.ofNat 32 (0x10 + 65536 * tag.toNat)) true) ∧
    AggDoes s (.recClr l) (fun g => g.admitted (dieState l) 0x80 fun g =>
      g.onPart fun p => (p.setBit (dieState l) 5 false).setBit (dieState l) 6 false)

/-- For every ready aggregator, a frame first passes the checks of its port and of its payload and otherwise only counts:
BCAST_RECEIVE is answered with HOP_ACK, passed on to an adopted child with its alternate noted, and otherwise taken
once per identifier (or again where only the adoption was known); HOP_ACK marks the child, or the children its sender
carries, as having acknowledged the CONFIRM (OP 3) or the last frame; READY is passed straight on for an adopted child
and otherwise kept as the part of the sum of that child; CONFIRM is answered and taken once: forwarded to the children
that have not failed, whose acknowledgement is awaited, and a started job replaces the earlier one of its partition;
BCAST_ABORT is answered and withdraws the broadcast once; a frame of a broadcast not known here changes nothing beyond
its answer. (R227, R311, R312, R313, R378, R379) -/
def Obligations.BroadcastFramesDownTheTree : Prop :=
  ∀ (s : State) (h : EthHdr) (m : Bcast) (e : BoreEvent) (child : Option Nat) (id op pooled refused unreached node : Nat),
    s.agg.phase = .ready →
    let framed (g : Agg) (b : TreeBody) (f : Agg → Agg) : Agg := if (g.treeIn h b).1 then f (g.treeIn h b).2 else (g.treeIn h b).2
    AggDoes s (.bcastReceive h m child) (fun g => framed g (.bcast m child) fun g =>
      let g := g.ethSend h.node (.hopAck m.id m.op)
      match child with
      | some c =>
        let g := match g.bcast m.id with
          | some b => g.putBcast { b with adopted := (b.adopted.filter fun (a : Nat × Nat) => a.1 != c) ++ [(c, h.node)] }
          | none => g.newBcast { msg := m, parent := none, adopted := [(c, h.node)], own := some (0, 0, 0), readySent := true }
        g.ethSend c (.bcast m none)
      | none => match g.bcast m.id with
        | none => g.bcastTake m (some h.node) 0 none false []
        | some b => if b.parent.isNone && !b.adopted.isEmpty then g.bcastTake m (some h.node) 0 none false b.adopted else g) ∧
    AggDoes s (.hopAck h id op) (fun g => framed g (.hopAck id op) fun g => match g.bcast id with
      | none => g
      | some b => g.putBcast { b with children := b.children.map fun c =>
          if (match c.via with | none => c.node | some a => a) = h.node then
            (if op = 3 then { c with confirmed := true } else { c with acked := true })
          else c }) ∧
    AggDoes s (.ready h id op pooled refused unreached node) (fun g => framed g (.ready id op pooled refused unreached node) fun g =>
      match g.bcast id with
      | none => g
      | some b => match b.adopted.find? fun a => a.1 == node with
        | some a => g.ethSend a.2 (.ready id op pooled refused unreached node)
        | none =>
          if b.children.any fun c => c.node == node then
            let g := if b.msg.op = 1 then g.jobReady b.job node pooled else g
            g.readyCheck { b with children := b.children.map fun c =>
              if c.node = node then { c with ready := some (pooled, refused, unreached) } else c }
          else g) ∧
    AggDoes s (.confirm h m child) (fun g => framed g (.bcast { m with op := 3 } child) fun g =>
      let g := g.ethSend h.node (.hopAck m.id 3)
      match g.bcast m.id with
      | none => g
      | some b => match child with
        | some c => g.ethSend c (.bcast { b.msg with op := 3 } none)
        | none =>
          if b.confirm then g
          else
            let b' := { b with confirm := true, children := b.children.map fun c => if c.failed then c else { c with asked := true } }
            let g := (g.putBcast b').bcastAll b { b.msg with op := 3 }
            if b.msg.op = 1 then
              g.onConf fun c => { c with jobs := c.jobs.filter fun j => j.id == b.job || j.partition != b.msg.body.partition }
            else g) ∧
    AggDoes s (.bcastAbort h m e child) (fun g => framed g (.bcast { m with op := 4, body := e } child) fun g =>
      let g := g.ethSend h.node (.hopAck m.id 4)
      match g.bcast m.id with
      | none => g
      | some b => match child with
        | some c => g.ethSend c (.bcast { b.msg with op := 4, body := e } none)
        | none =>
          if b.abort then g
          else
            let g := g.putBcast { b with abort := true, children := b.children.map fun c => { c with acked := false } }
            let g := (g.bcastAll b { b.msg with op := 4, body := e }).boreAll b.lanes e
            if b.msg.op = 1 then g.dropJob b.job
            else g.onLev fun v => { v with cancelled := if b.job ∈ v.cancelled then v.cancelled else v.cancelled ++ [b.job] })

/-- For every ready aggregator, for a broadcast that is known (an unknown one changes nothing): HOP_ACK_TIMEOUT fails a
child that has not acknowledged the last frame, its children are adopted by their alternates and the rest counted as
unreached (a free number), and changes nothing of a child that has acknowledged or failed; ACK_GATHER_EXPIRED carries
time to the gather limit and settles the part of the tray itself; BCAST_DECIDE at the root carries time to DECIDE and
confirms when every expected member pooled with none refused or unreached, and aborts otherwise; CONFIRM_ACK_CHECK
aborts for the first child asked without a CONFIRM acknowledgement; TRAY_SELF_ABORT withdraws on the dies of the tray
at T minus half the margin; START_SPLIT at T marks the split and names every such child. FREEZE_NOW is a freeze cause
of the register; UNFREEZE ends the freeze; FREEZE_POST_EXPIRED stops the rings FREEZE_POST_MS after the cause;
FREEZE_MAX_EXPIRED ends it after FREEZE_MAX_S with its record; MODEL_VALIDATE checks the staged model of the class it
names, and MODEL_SWAP_ARM arms it once validated. (R15, R303, R312, R313, R314, R316, R319) -/
def Obligations.BroadcastTimersFreezesAndModels : Prop :=
  ∀ (s : State) (id node : Nat) (cls : Fin 8), s.agg.phase = .ready →
    let known (g : Agg) (f : BcState → Agg) : Agg := match g.bcast id with | none => g | some b => f b
    AggDoes s (.hopAckTimeout id node) (fun g => known g fun b =>
      match b.children.find? fun c => c.node == node && !c.failed && !(if b.confirm && !b.abort then c.confirmed else c.acked) with
      | none => g
      | some c =>
        let gs : List (Nat × Nat) := match c.via with
          | some _ => []
          | none => match g.children.find? fun x => x.2 == node with
            | some x => g.grandchildren x.1
            | none => []
        let (yes, no) := gs.partition fun x => isNode x.2
        let n := no.length + (if c.via.isSome || gs.isEmpty then 1 else 0)
        let (lost, p) := (List.range n).foldl (fun (s : Nat × Part) _ => (s.1 + s.2.draw32.1.toNat, s.2.draw32.2)) (0, g.part)
        let g := { g with part := p }
        let kids : List BcChild := yes.map fun (x : Nat × Nat) => { node := x.1, via := some x.2, asked := b.confirm }
        let b' := { b with
          children := (b.children.map fun x => if x = c then { x with failed := true } else x) ++ kids
          unreached := b.unreached + lost }
        let (ab, g) := if b.abort then g.abortBody b else (b.msg.body, g)
        let g := kids.foldl (fun (g : Agg) (k : BcChild) => g.bcastTo { b.lastFrame ab with adopted := true, adoptFor := node } k) g
        let g := g.readyCheck b'
        if c.via.isSome then g
        else g.onPart fun p => (p.inc 0x10C4).raise 1 24
          { detail := leBytes 4 id ++ leBytes 4 node ++ leBytes 1 kids.length }) ∧
    AggDoes s (.ackGatherExpired id) (fun g => known g fun b => match b.gatherUntil with
      | none => g
      | some t =>
        if b.own.isSome then g
        else
          let g := g.reach t
          let g := if b.msg.op = 1 then g.onConf fun c => { c with jobs := c.jobs.map fun j =>
              if j.id = b.job then { j with own := b.ackSums.1 } else j } else g
          g.readyCheck { b with own := some b.ackSums, gatherUntil := none }) ∧
    AggDoes s (.bcastDecide id) (fun g => known g fun b =>
      if g.isRoot = true ∧ b.parent = none ∧ b.confirm = false ∧ b.abort = false then
        let g := g.reach b.msg.decideAt
        if b.totals = (b.expected, 0, 0) then g.confirmTake b
        else g.rootAbort b (if b.totals.2.1 = 0 then 1 else 2) (g.firstShort b)
      else g) ∧
    AggDoes s (.confirmAckCheck id) (fun g => known g fun b =>
      if b.parent = none ∧ b.confirm = true ∧ b.abort = false then
        let g := g.reach (b.time - g.part.num 0x1094 / 4)
        match (b.children.filter fun c => c.asked && !c.confirmed).map fun c => c.node with
        | [] => g
        | n :: _ => g.rootAbort b 3 n
      else g) ∧
    AggDoes s (.traySelfAbort id) (fun g => known g fun b =>
      if g.interior = false ∧ b.parent ≠ none ∧ b.confirm = false ∧ b.abort = false then
        let r := (g.reach (b.time - g.part.num 0x1094 / 2)).abortBody b
        let g := (r.2.putBcast { b with abort := true }).boreAll b.lanes r.1
        let g := if b.msg.op = 1 then g.dropJob b.job else g
        g.onPart fun p => (p.inc 0x10C8).raiseEach 1 25
          { detail := leBytes 4 b.msg.id ++ leBytes 4 b.job ++ leBytes 1 4 ++ leBytes 4 g.nodeId }
      else g) ∧
    AggDoes s (.startSplit id) (fun g => known g fun b =>
      if b.parent = none ∧ b.confirm = true ∧ b.split = false then
        let g := g.reach b.time
        match (b.children.filter fun c => c.asked && !c.confirmed).map fun c => c.node with
        | [] => g
        | ns => ns.foldl (fun g n => g.onPart fun p => p.raiseEach 1 26 { detail := leBytes 4 b.job ++ leBytes 4 n })
          (g.putBcast { b with split := true })
      else g) ∧
    AggDoes s .freezeNow (fun g => g.commanded 0x1040 8 fun g => match g.conf.freeze with
      | none => g.onConf fun x => { x with freeze := some ⟨g.now, 0xFF, 0, false⟩ }
      | some _ => g.onPart fun p => p.raise 1 29 { unit := 0, detail := leBytes 1 0xFF ++ leBytes 1 0 ++ [0] }) ∧
    AggDoes s .unfreeze (fun g => g.commanded 0x1040 16 fun g =>
      (g.onConf fun x => { x with freeze := none }).onPart fun p => p.setBit 0x1044 2 false) ∧
    AggDoes s .freezePostExpired (fun g => match g.conf.freeze with
      | none => g
      | some z =>
        if z.frozen then g
        else ((g.reach (z.since + g.part.num 0x10A4 * 1000000)).onConf fun x =>
          { x with freeze := some { z with frozen := true } }).onPart fun p =>
            (p.setBit 0x1044 2 true).raise 1 29 { unit := z.port, detail := leBytes 1 z.cause ++ leBytes 1 z.port ++ [0] }) ∧
    AggDoes s .freezeMaxExpired (fun g => match g.conf.freeze with
      | none => g
      | some z => ((((g.reach (z.since + g.part.num 0x10A8 * 1000000000)).onPart fun p =>
          p.raise 1 29 { unit := z.port, detail := leBytes 1 z.cause ++ leBytes 1 z.port ++ [1] }).onConf fun x =>
            { x with freeze := none }).onPart fun p => p.setBit 0x1044 2 false)) ∧
    AggDoes s (.modelValidate cls) (fun g => g.admitted 0x10F4 (BitVec.ofNat 32 (1 + 2 * cls.val)) fun g =>
      let e := g.driftCheck cls
      let prog := (hdrAt g.conf.drift.model (g.driftStaging cls)).prog
      let ok := decide (e = 0 ∧ prog = g.part.num 0x107C)
      let r := if e = 0 ∧ ok = false then (g.part.draw32.1.toNat % 256, { g with part := g.part.draw32.2 }) else (e, g)
      (r.2.onPart fun p => p.setFld 0x10F4 8 8 r.1).onDrift fun x =>
        { x with staged := sput false x.staged cls ok, armed := sput false x.armed cls false }) ∧
    AggDoes s (.modelSwapArm cls) (fun g => g.admitted 0x10F4 (BitVec.ofNat 32 (0x10 + 2 * cls.val)) fun g =>
      if sget false g.conf.drift.staged cls then g.onDrift fun x => { x with armed := sput false x.armed cls true }
      else g.onPart fun p => p.accessErr 1 0x10F4 (BitVec.ofNat 32 (0x10 + 2 * cls.val)) true)

/-- For every ready aggregator: WATCHDOG_EXPIRY of a core in RUN while an image runs counts the expiries of the last 60 s,
retires the core at the third and resets it otherwise, records it, restarts what an expiring supervisor held, gives
each of its tasks to its adopter, leaves a retired core none, and counts toward the storm of a new image; it does
nothing to a core not in RUN or with no image; CORE_SELF_CHECK_DONE makes a RESETTING core a SPARE, and while an image
runs the tasks that no core in RUN hosts are adopted; CHECKPOINT while an image runs keeps the phase of each item the
task holds and brings a moved task home to a core in RUN or SPARE; CHECKPOINT_LATE while firmware runs carries time to
1 ms after the last checkpoint and records it. (R321, R322, R323, R324, R325, R334, R339, R340) -/
def Obligations.FirmwareCoresAndCheckpoints : Prop :=
  ∀ (s : State) (c t : Fin 8) (lost : List Nat), s.agg.phase = .ready →
    AggDoes s (.watchdogExpiry c lost) (fun g =>
      if g.part.fld (0x2080 + 4 * c) 0 2 = 0 ∧ g.mill.running ≠ none then
        let super := g.coresRun.head? == some c.val
        let es := g.now :: (sget [] g.mill.expiries c).filter fun t => decide (g.now < t + 60000000000)
        let n := es.length
        let g := g.onMill fun x => { x with expiries := sput [] x.expiries c es }
        let g := g.onPart fun p => ((p.setFld (0x2080 + 4 * c) 8 8 n).setFld (0x2080 + 4 * c) 0 2 (if 3 ≤ n then 3 else 1)).raise
          2 16 { unit := c, detail := leBytes 1 c ++ leBytes 1 n ++ leBytes 8 p.now }
        let g := if 3 ≤ n then
            (g.onPart fun p => p.raiseEach 2 18 { unit := c, detail := leBytes 1 c ++ leBytes 1 g.coresFit }).event 0x8002
              (leBytes 1 c ++ leBytes 1 n)
          else g
        let g := if super then (g.resume 8 false).2.2 else g
        let g := (g.coreTasks c).foldl (fun g t => g.adopt t c (lost.contains t)) g
        let g := if 3 ≤ n then g.onPart fun p => p.setFld (0x2080 + 4 * c) 16 8 0 else g
        let g := if g.updPhase = 3 ∨ g.updPhase = 4 then
            let n := g.mill.storm + 1
            let g := g.onMill fun x => { x with storm := n }
            if n < 3 then g else if g.updPhase = 3 then g.handoffBack 3 else g.revert 6
          else g
        g.fwUpdate
      else g) ∧
    AggDoes s (.coreSelfCheckDone c) (fun g =>
      if g.part.fld (0x2080 + 4 * c) 0 2 = 1 then
        let g := g.onPart fun p => p.setFld (0x2080 + 4 * c) 0 2 2
        let stray := (List.range 8).filter fun t => (g.coresRun.any fun k => g.part.bit (0x2080 + 4 * k) (16 + t)) = false
        (if g.mill.running = none then g else stray.foldl (fun g t => g.adopt t (g.taskCore t) false) g).fwUpdate
      else g) ∧
    AggDoes s (.checkpoint t) (fun g =>
      if g.mill.running = none then g
      else
        let g := g.onMill fun x => { x with
          checked := sput 0 x.checked t g.now
          msgs := x.msgs.map fun m =>
            if m.heldBy t || (t.val == 0 && m.task == 8) then { m with saved := some m.phase } else m }
        let home := if t.val < 6 then t.val + 1 else 7
        if g.taskCore t ≠ home ∧ (g.coreState home = 0 ∨ g.coreState home = 2) ∧ g.taskCore t ≠ 0xFF then
          ((g.placeTask t home).onPart fun p => p.setFld (0x2080 + 4 * home) 0 2 0).fwUpdate
        else g) ∧
    AggDoes s (.checkpointLate t) (fun g =>
      if g.fwRuns = false then g
      else
        let since := sget 0 g.mill.checked t
        let g := g.reach (since + 1000000)
        g.onPart fun p => p.raise 2 25
          { unit := t, detail := leBytes 1 t ++ leBytes 1 (g.taskCore t) ++ leBytes 4 ((p.now - since) / 1000) })

/-- For every ready aggregator: REQ_TAIL that would change a locked page, one beyond the ring, or one that would take back
what is waiting, is refused with ACCESS_ERR and is stored otherwise; with firmware running, PING, GET_INFO and GET_LOG
answer the oldest taken message of their opcode and source (the bytes of the log are a free value: the spec states
none); SB_READ, SB_WRITE and SB_SCAN start the oldest of theirs whose bus no other message holds; SB_TRANSACTION_DONE
answers the holder of the bus with status 0 and its data, or 7 on NAK, and one of a periodic read is a sample of its
sensor; SB_TIMEOUT answers it with 8; SB_ALERT is an event while firmware serves or hands over; with no such message
nothing changes. (R38, R47, R328, R329, R331, R366, R407, R302) -/
def Obligations.FirmwareMessagesAndTheSideband : Prop :=
  ∀ (s : State) (src : MsgFrom) (pair bus : Fin 4) (w : W32) (addr : Nat) (res : SbResult) (sensor : Option (Nat × Int)),
    s.agg.phase = .ready →
    let answered (op : Nat) (f : Msg → Agg → Agg) (g : Agg) : Agg := match g.msgFor src op with
      | none => g
      | some m => f m g
    let holder (g : Agg) (b : Nat) : Option Msg := g.mill.msgs.find? fun x => x.sideband && x.phase == .started && x.bus == b
    let start (op : Nat) (g : Agg) : Agg := match g.msgWith src op fun m => (holder g m.bus).isNone with
      | none => g
      | some m => (g.putMsg m .started).show (.sideband m.bus m.payload)
    let held (f : Msg → Agg → Agg) (g : Agg) : Agg := match holder g bus with
      | none => g
      | some m => f m g
    let a := pairReg pair
    AggDoes s (.reqTail pair w) (fun g => g.admitted (a + 4) w fun g =>
      let n := g.slots pair
      let t := w.toNat % 4096
      let h := g.part.fld (a + 8) 0 12
      let old := g.part.fld (a + 4) 0 12
      if ((g.part.hdr 2).lock = true ∧ t ≠ old) ∨ n ≤ t ∨ ((t + n - h % n) % n = 0 ∧ (old + n - h % n) % n ≠ 0) then
        g.onPart fun q => q.accessErr 2 (a + 4) w true
      else g.onPart fun q => q.setFld (a + 4) 0 12 t) ∧
    AggDoes s (.ping src) (answered 1 fun m g =>
      g.putMsg m (.done 0 (leBytes 4 g.version ++ leBytes 1 (g.part.fld 0x2044 0 3)))) ∧
    AggDoes s (.getInfo src) (answered 2 fun m g =>
      g.putMsg m (.done 0 (leBytes 4 g.version ++ leBytes 4 (g.part.num 0x2068) ++ leBytes 2 (g.part.num 0x206C) ++
        leBytes 2 (match g.mill.running with | some i => i.schema | none => 0) ++
        ((List.range 8).map fun c => leBytes 1 (g.part.fld (0x2080 + 4 * c) 0 2)).flatten ++
        ((List.range 8).map fun t => leBytes 1 (g.taskCore t)).flatten))) ∧
    AggDoes s (.getLog src) (answered 3 fun m g =>
      let (x, p) := drawBytes (dget m.payload 8 2) g.part
      ({ g with part := p }).putMsg m (.done 0 x)) ∧
    AggDoes s (.sbRead src) (start 0x20) ∧
    AggDoes s (.sbWrite src) (start 0x21) ∧
    AggDoes s (.sbScan src) (start 0x22) ∧
    AggDoes s (.sbTransactionDone bus res sensor) (fun g => match sensor with
      | some (k, v) => if g.fwRuns then g.sample 6 k 0 v else g
      | none => held (fun m g => match res with
        | .nak => g.putMsg m (.done 7 [])
        | .done bs st => g.putMsg m (.done 0 (if m.opcode = 0x20 then padTo (dget m.payload 3 1) bs ++ [st]
            else if m.opcode = 0x22 then padTo 16 bs else []))) g) ∧
    AggDoes s (.sbTimeout bus) (held fun m g => g.putMsg m (.done 8 [])) ∧
    AggDoes s (.sbAlert bus addr) (fun g =>
      if 1 ≤ g.part.fld 0x2044 0 3 ∧ g.part.fld 0x2044 0 3 ≤ 4 then g.event 0x8005 (leBytes 1 bus ++ leBytes 1 addr) else g)

/-- For every ready aggregator: a command of a phase that does not allow it is answered with its status and changes
nothing else; FW_VERIFY starts verification from IDLE and VERIFIED, and again where a restart re-executes it;
FW_ACTIVATE starts the handoff from VERIFIED; FW_COMMIT commits in PROBATION; FW_REVERT drops the staged image in
VERIFIED and gives up the image in PROBATION; IMAGE_VERIFY_DONE of a running verification answers FW_VERIFY, and an
image that passes is copied and VERIFIED, or booted for the ROM unless DRAM is FAULTED; NEW_READY in HANDOFF takes the
new image over, or refuses one that cannot read the schema; NEW_REFUSE and HANDOFF_TIMEOUT end the handoff;
PROBATION_END commits; STAGING_WRITE stores within the staging area of an ACTIVE DRAM and is refused while the image
is verified or handed off; ROM_LOAD verifies in DOWN unless the verifier runs; BOOT_LOAD_DONE before any image boots
the primary image, else the backup, else FW_DOWN; out of their phase they change nothing. (R324, R327, R332, R333,
R334, R335, R340, R450) -/
def Obligations.FirmwareUpdatesAndBoot : Prop :=
  ∀ (s : State) (src : MsgFrom) (crypt : Nat) (off : Nat) (bs : List Byte) (a b : ImageSeen), s.agg.phase = .ready →
    let answered (op : Nat) (f : Msg → Agg → Agg) (g : Agg) : Agg := match g.msgFor src op with
      | none => g
      | some m => f m g
    let back (result : Nat) (g : Agg) : Agg :=
      let left := match g.mill.staged with | some i => i.version | none => 0
      let g := (((g.setResult result).activateEnd 4 result).onMill fun x => { x with staged := none }).resumeAll
      (g.setPhase 0).fallbackRecord result g.version left
    let commit (g : Agg) : Agg := (((g.show (.flash g.version (g.part.num 0x2068))).setOld none).setResult 4).setPhase 0
    AggDoes s (.fwVerify src) (answered 0x10 fun m g =>
      if g.updPhase = 0 ∨ g.updPhase = 2 ∨ (g.updPhase = 1 ∧ m.saved = some .started) then
        ((g.putMsg m .started).onMill fun x => { x with verifying := some false, staged := none }).setPhase 1
      else g.putMsg m (.done 3 [])) ∧
    AggDoes s (.fwActivate src) (answered 0x11 fun m g =>
      if g.updPhase = 2 then ((g.putMsg m .started).onMill fun x => { x with storm := 0 }).setPhase 3
      else g.putMsg m (.done (if g.updPhase = 0 then 4 else 3) [])) ∧
    AggDoes s (.fwCommit src) (answered 0x12 fun m g =>
      if g.updPhase = 4 then commit (g.putMsg m (.done 0 []))
      else g.putMsg m (.done (if g.updPhase = 1 then 3 else 4) [])) ∧
    AggDoes s (.fwRevert src) (answered 0x13 fun m g =>
      if g.updPhase = 2 then ((g.onMill fun x => { x with staged := none }).putMsg m (.done 0 (leBytes 4 g.version))).setPhase 0
      else if g.updPhase = 4 then
        let v := match g.mill.old with | some o => o.version | none => g.version
        (g.putMsg m (.done 0 (leBytes 4 v))).revert 5
      else g.putMsg m (.done (if g.updPhase = 1 then 3 else 4) [])) ∧
    AggDoes s (.imageVerifyDone crypt) (fun g => match g.mill.verifying with
      | none => g
      | some rom =>
        let h := Mem.rdBytes g.chip.dram 0xF88000000 4096
        let i := imageId h
        let cause := imageCause h crypt (g.part.fld 0x2070 0 16)
        let g := g.onMill fun x => { x with verifying := none }
        let g := if cause = 0 then g else g.authFail h cause 0
        if rom then (if cause = 0 ∧ g.part.pstate 0x20 ≠ .faulted then (g.copyImage 0).boot i else g)
        else
          let g := match g.fwHeld 0x10 with
            | some m =>
              g.putMsg m (.done (if cause = 0 then 0 else if cause = 5 then 6 else 5) (leBytes 4 i.version ++ leBytes 2 i.svn))
            | none => g
          if cause = 0 then ((g.copyImage (1 - g.mill.slot)).onMill fun x => { x with staged := some i }).setPhase 2
          else g.setPhase 0) ∧
    AggDoes s .newReady (fun g => match g.mill.staged with
      | none => g
      | some i =>
        if g.updPhase ≠ 3 then g
        else if (match g.mill.running with | some o => decide (o.schema < i.schemaMin) | none => false) then back 2 g
        else
          let old := g.version
          let g := (g.setOld g.mill.running).onMill fun x => { x with staged := none, slot := 1 - x.slot }
          let g := ((g.setRunning i).setResult 1).activateEnd 0 1
          (g.resumeAll.setPhase 4).event 0x8003 ([1] ++ leBytes 4 old ++ leBytes 4 i.version)) ∧
    AggDoes s .newRefuse (fun g => if g.updPhase = 3 then back 2 g else g) ∧
    AggDoes s .handoffTimeout (fun g =>
      if g.updPhase = 3 then (g.reach (g.mill.phaseAt + g.part.num 0x207C * 1000000)).handoffBack 2 else g) ∧
    AggDoes s .probationEnd (fun g =>
      if g.updPhase = 4 ∧ g.part.num 0x2078 ≠ 0 then
        commit (g.reach (g.mill.phaseAt + g.part.num 0x2078 * 1000000000))
      else g) ∧
    (off < 0x4000000 → AggDoes s (.stagingWrite off bs) (fun g =>
      let stored := g.onChip fun c =>
        { c with dram := Mem.wrBytes c.dram (0xF88000000 + off) (bs.take (4096 - (0xF88000000 + off) % 4096)) }
      if g.part.active 0x20 = false then g.onPart fun p => p.inc 0x4068
      else if g.updPhase = 1 ∨ g.updPhase = 3 then g.onPart fun p => p.inc 0x20B4
      else if g.updPhase = 2 then (stored.onMill fun x => { x with staged := none }).setPhase 0
      else stored)) ∧
    AggDoes s .romLoad (fun g => g.commanded 0x2040 8 fun g =>
      if g.part.fld 0x2044 0 3 = 5 ∧ g.mill.verifying = none then g.onMill fun x => { x with verifying := some true } else g) ∧
    AggDoes s (.bootLoadDone a b) (fun g =>
      if g.part.fld 0x2044 0 3 ≠ 0 ∨ g.mill.running ≠ none then g
      else
        let svn := g.part.fld 0x2070 0 16
        let ca := imageCause a.header a.crypt svn
        let cb := imageCause b.header b.crypt svn
        let boot (g : Agg) (i : ImageId) : Agg :=
          let fit := decide (0 < g.coresFit)
          let g := g.onPart fun p => if p.pstate 2 = .off ∧ fit = true then p.modHdr 2 fun h => { h with state := .active } else p
          let g := g.onMill fun x => { x with slot := 0, checked := (List.range 8).foldl (fun m t => sput 0 m t g.now) x.checked }
          (g.setRunning i).fwUpdate
        if ca = 0 then boot g (imageId a.header)
        else if cb = 0 then boot (g.authFail a.header ca 1) (imageId b.header)
        else (((g.authFail a.header ca 1).authFail b.header cb 2).onPart fun p => p.raise 2 19 { detail := [1] }).fwUpdate)

/-- For every ready aggregator: ADC_CONVERSION of a valid sample is kept, tracked by a PRESENT channel, and drives level,
shutdown and throttle, and an open or out-of-range one counts toward the fault at ten; VRM_OFF_EXPIRED of a die whose
VRMs are due drops them; SHUT_CLR is refused near SHUT and clears the named shutdowns otherwise (unless tripped);
FORCE_THROTTLE stores its word and drives the outputs (the channel and sample of a rise it forces are free values: the
spec states none); LIMIT_TIGHTEN stores a stricter limit and is refused with ACCESS_ERR where it loosens one or the
page is locked, and at any other address is the write of that register; PLAN_ARM is refused outside ACTIVE or with a
bad plan; PLAN_STOP stops a running plan; PLAN_LAUNCH of a running plan starts the next VALID entry at its lead or
skips it with its cause, unless LEVEE is FAULTED. For a die that is up: POWER_GRANT grants the operating point;
PSTEP_NO_GRANT presents an ungranted request again 1 ms later. (R305, R343, R344, R345, R346, R348, R349, R351, R352,
R353, R354, R355) -/
def Obligations.LeveeLimitsAndPowerSteps : Prop :=
  ∀ (s : State) (l : Lane) (c : Fin 96) (res : AdcRead) (w : W32) (op : Fin 256) (addr : BitVec 24),
    (s.agg.phase = .ready →
      let bad (g : Agg) (cause : Nat) : Agg :=
        if g.chPresent c = false then g
        else
          let x := g.chan c
          let n := min 10 (x.bad + 1)
          let g := g.setChan c { x with beyond := [], safe := [], shutRun := 0, bad := n, good := 0 }
          let g := g.onPart fun p => (p.stageDrop 3 0 c).stageDrop 3 1 c
          if n = 10 ∧ g.part.bit (chAddr c + 12) 19 = false then
            (g.onPart fun p => (((p.setBit (chAddr c + 12) 19 true).setFld (chAddr c + 12) 16 2 3).inc 0x3098).raise 3 20
              { unit := c, detail := leBytes 1 c ++ leBytes 1 cause }).throttle c (g.part.fld (chAddr c + 12) 0 16)
          else g
      AggDoes s (.adcConversion c res) (fun g =>
        let g := match res with
          | .openInput => bad g 1
          | .outOfRange => bad g 2
          | .sample v =>
            let g := g.onPart fun p => p.setFld (chAddr c + 12) 0 16 v.toNat
            if g.chPresent c then
              let x := g.chTrack c v.toNat
              let g := g.setChan c x
              let fault := g.part.bit (chAddr c + 12) 19 && decide (x.good < 10)
              let g := g.onPart fun p => p.setBit (chAddr c + 12) 19 fault
              let lvl := g.chLevel c
              let new := if fault then lvl else g.chNext c x
              let g := (g.chStage c lvl new x).onPart fun p => p.setFld (chAddr c + 12) 16 2 new
              (g.chShut c v.toNat x).throttle c v.toNat
            else g
        if c.val < 64 ∧ c.val % 4 = 0 then g.mgmtCheck (c.val / 4) else g) ∧
      AggDoes s (.vrmOffExpired l) (fun g => match sget none g.lev.offAt l with
        | none => g
        | some t => ((g.reach t).onLev fun v =>
            { v with offAt := sput none v.offAt l none, dropped := v.dropped ||| 2 ^ l.val }).vrmDrive) ∧
      AggDoes s (.shutClr w) (fun g => g.admitted 0x3058 w fun g =>
        let ds := maskLanes w.toNat
        if ds.any g.nearShut then g.onPart fun p => p.accessErr 3 0x3058 w true
        else if g.chip.tripped then g
        else
          let m := (ds.map fun d => 2 ^ d).sum
          let g := g.onPart fun p => p.setFld 0x3060 0 16 (p.fld 0x3060 0 16 &&& (0xFFFF - m))
          (g.onLev fun v => { v with
            dropped := v.dropped &&& (0xFFFF - m)
            offAt := ds.foldl (fun o d => sput none o d none) v.offAt }).vrmDrive) ∧
      AggDoes s (.forceThrottle w) (fun g => g.admitted 0x3068 w fun g =>
        let g := if w.toNat = g.part.num 0x3068 then g else g.onPart fun p => p.setNum 0x3068 w.toNat
        let r := g.part.draw32
        ({ g with part := r.2 }).throttle (r.1.toNat % 256) (r.1.toNat / 256 % 65536)) ∧
      (let limit := 0x3100 ≤ addr.toNat ∧ addr.toNat < 0x3700 ∨ addr.toNat ∈ [0x304C, 0x3054, 0x306C, 0x3070];
        (addr.toNat % 4 = 0 → limit → AggDoes s (.limitTighten addr w) (fun g => g.admitted addr.toNat w fun g =>
          match specOf true 3 (addr.toNat % 0x1000) with
          | none => g
          | some (r, _) =>
            let old := g.part.num addr.toNat
            if r.fields.any (fieldRefused ((g.part.hdr 3).lock) (g.staticFixed addr.toNat) old w.toNat) ||
                r.fields.any (g.loosens addr.toNat old w) then g.onPart fun p => p.accessErr 3 addr.toNat w true
            else if mergeWord r old w.toNat = old then g
            else g.onPart fun p => p.setNum addr.toNat (mergeWord r old w.toNat))) ∧
        exec (.limitTighten addr w) s = exec (.registerWrite .agg addr w) s) ∧
      AggDoes s .planArm (fun g => g.commanded 0x3040 1 fun g =>
        if g.part.active 3 = true ∧ g.planBad = false then
          { g.onPart fun p => (p.setBit 0x3044 2 true).setFld 0x3088 0 11 0 with
            lev := { g.lev with cancelled := [], stopping := false } }
        else g.onPart fun p => p.accessErr 3 0x3040 (g.part.kept true 0x3040 ||| 1) true) ∧
      AggDoes s .planStop (fun g => g.commanded 0x3040 2 fun g =>
        if g.part.bit 0x3044 2 then g.onLev fun v => { v with stopping := true } else g) ∧
      AggDoes s .planLaunch (fun g =>
        let n := g.part.fld 0x3074 0 11
        let i := g.planNext (n - g.part.fld 0x3088 0 11) (g.part.fld 0x3088 0 11)
        if g.part.bit 0x3044 2 = false ∨ g.lev.stopping = true ∨ g.part.pstate 3 = .faulted then g
        else if n ≤ i then g.onPart fun p => p.setFld 0x3088 0 11 n
        else
          let t := g.part.num64 0x3078 + g.planField i 0 4 * 1000
          let g := (g.reach (t - g.part.num 0x3080 * 1000)).onPart fun p => p.setFld 0x3088 0 11 (i + 1)
          let job := g.planField i 4 4
          if 16 ≤ g.planInflight then g.planSkip i 1
          else if job ∈ g.lev.cancelled then g.planSkip i 2
          else match sget none g.conf.lastMerged job with
          | none => g.planSkip i 3
          | some last =>
            let k := if (g.planField i 11 1).testBit 1 then g.planField i 12 4
              else (last + g.part.fld 0x3084 0 4) % 4294967296
            let (e, g) := g.makeEvent 6 (g.planField i 10 1) 2 (g.planField i 8 2) 0xFFFFFFFF t k job
            let members := match g.job job with | some j => j.members | none => 0
            (g.onPart fun p => p.inc 0x3094).bcastStart 2 e members none true)) ∧
    ((s.die l).Up →
      DieDoes s (.powerGrant l op) l (fun d => d.onPart fun p =>
        ((p.setFld 0x100 0 3 op).setBit 0x100 3 true).setBit 0x100 8 false) ∧
      DieDoes s (.pstepNoGrant l) l (fun d =>
        if d.part.bit 0x100 8 then
          let d := d.onPart fun p => p.reach (d.glob.reqAt + 1000000)
          let d := d.onPart fun p => p.raise 0 17 { detail := leBytes 1 (p.fld 0x100 4 3) ++ leBytes 4 (p.num 0x104) }
          (d.onGlob fun g => { g with reqAt := d.now }).onPart fun p =>
            { p with out := p.out ++ [Out.powerReq (p.fld 0x100 4 3) (p.num 0x104)] }
        else d))

/-- For every ready aggregator: DOORBELL that would change a locked page or name more than the ring holds is refused with
ACCESS_ERR, and otherwise sets TAIL and wakes an idle ACTIVE ring; DESCRIPTOR_FETCH of a ring that may fetch takes the
descriptor at HEAD, or halts on a read fault; WAIT_POLL of a waiting ring reads its value; WAIT_EXPIRED ends the
waiting descriptor with status 4; DESCRIPTOR_COMPLETE, unless the page is FAULTED, produces the completion of a
finished descriptor (of a broadcast at T, with how it ended), or counts it when discarded; RING_RESUME restarts a
fetch-halted ring, writes the kept completions of a completion-halted one, and is refused otherwise; REG_TIMEOUT
expires the request it names, or the bulk load; REG_FRAME that stands is issued on the lane of its die, and
REG_FRAME_RESPONSE answers the request of its id or counts an orphan. In any other ring state they change nothing.
(R41, R364, R366, R367, R368, R369, R370, R371, R372, R374, R375, R390) -/
def Obligations.RingsFetchWaitCompleteAndResume : Prop :=
  ∀ (s : State) (i : Fin 64) (w : W32) (r wait : HostRead) (k gdid id op nwords addr status : Nat) (data : List W32)
      (fault : Bool) (good : Option Nat) (h : EthHdr) (l : Lane), s.agg.phase = .ready →
    let framed (g : Agg) (b : TreeBody) (f : Agg → Agg) : Agg := if (g.treeIn h b).1 then f (g.treeIn h b).2 else (g.treeIn h b).2
    let c := cmdRing i
    let expire (g : Agg) : Option RegOut → Agg
      | none => g
      | some q =>
        let g := g.reach (q.since + g.part.num 0x4048 * 1000)
        let gone : Agg := g.onEst fun e => { e with reqs := e.reqs.erase q }
        match q.owner with
        | .node _ _ => gone
        | owner =>
          if (q.op = 1 ∨ q.idem = true) ∧ q.tries < g.part.fld 0x404C 0 3 then
            let q' := { q with tries := q.tries + 1, since := g.now }
            let g := (g.onEst fun e => { e with reqs := e.reqs.map fun x => if x = q then q' else x }).onPart fun p => p.inc 0x4070
            match q.lane with
            | some l => match g.regCell l q.id q.op q.nwords q.addr q.data with | some g => g | none => g
            | none => g.ethSend (g.rNode q.gdid) (.regReq q.gdid q.id q.op q.nwords q.addr q.data)
          else
            let g := gone.onPart fun p => p.raise 4 19 { detail := leBytes 4 q.gdid ++ leBytes 2 q.id ++ leBytes 1 (q.tries + 1) }
            match owner with
            | .desc i k => match g.desc i k with
              | some d => g.descEnd i d 7 0 (256 * (q.tries % 256))
              | none => g
            | _ => g
    AggDoes s (.doorbell i w) (fun g => g.admitted (c + 0x4C) w fun g =>
      if ((g.part.hdr (0x40 + i)).lock = true ∧ w.toNat ≠ g.tail i) ∨
          2 ^ g.part.fld (c + 0x40) 0 5 < (w.toNat + 4294967296 - g.head i) % 4294967296 then
        g.onPart fun p => p.accessErr (0x40 + i) (c + 0x4C) w true
      else
        let g := g.onPart fun p => (p.wr (c + 0x4C) w).setBit (c + 0x54) 3 true
        if g.ringActive i && g.run i == 0 then g.setRun i 1 else g) ∧
    AggDoes s (.descriptorFetch i r wait) (fun g =>
      if g.ringActive i = true ∧ g.run i = 1 ∧ (g.ring i).blocked = none ∧ g.head i ≠ g.tail i ∧ g.gateOpen = true then
        let g := g.onPart fun p => p.setBit (c + 0x54) 3 false
        let n := g.head i
        let a := g.descAddr i n
        let x : HostRead := if g.part.bit (c + 0x40) 5 then .data (Mem.rdBytes g.chip.dram a 64) else r
        match x with
        | .fault _ => g.ringHalt i 4 2 a
        | .data bs =>
          let bs := padTo 64 bs
          let waits := (dget bs 1 1).testBit 1 && !descBad bs
          let g := g.onPart fun p => (p.setNum (c + 0x50) (n + 1)).incWrap (c + 0x70) 1
          let g := g.onRing i fun x => { x with blocked := some { index := n, bytes := bs, waiting := waits, since := g.now } }
          if waits then (g.setRun i 1).waitRead i wait else g
      else g) ∧
    AggDoes s (.waitPoll i r) (fun g => match (g.ring i).blocked with
      | none => g
      | some b =>
        if g.run i = 2 ∧ g.gateOpen = true ∧ g.ringActive i = true ∧ b.waiting = true then
          match r with
          | .fault _ => (g.onRing i fun x => { x with blocked := some { b with waiting := false, status := some 3 } }).setRun i 1
          | .data bs =>
            if dget b.bytes 0x10 8 ≤ leNat (bs.take 8) then
              (g.onRing i fun x => { x with blocked := some { b with waiting := false } }).setRun i 1
            else g.setRun i 2
        else g) ∧
    AggDoes s (.waitExpired i) (fun g => match (g.ring i).blocked with
      | none => g
      | some b =>
        if g.run i = 2 ∧ b.waiting = true ∧ g.part.num (c + 0x5C) ≠ 0 ∧ g.ringActive i = true then
          let g := (g.reach (b.since + g.part.num (c + 0x5C) * 1000000)).onRing i fun x =>
            { x with blocked := some { b with waiting := false, status := some 4 } }
          (g.setRun i 1).onPart fun p => p.raise (0x40 + i) 17
            { detail := leBytes 4 (dget b.bytes 4 4) ++ leBytes 8 (dget b.bytes 8 8) }
        else g) ∧
    AggDoes s (.descriptorComplete i k fault) (fun g =>
      if g.part.pstate (0x40 + i) = .faulted then g
      else
        let g : Agg := match g.desc i k with
          | none => g
          | some d =>
            if dget d.bytes 0 1 = 9 ∧ d.phase = DescPhase.running then
              match g.conf.bcasts.find? fun b => b.desc == some (i.val, d.index) with
              | none => g
              | some b =>
                let g := (g.reach b.time).startSplit b.msg.id
                let b := match g.bcast b.msg.id with | some b => b | none => b
                let st := if b.split then 10 else if b.abort || !b.confirm then 9 else 0
                (g.putBcast { b with desc := none }).descEnd i d st b.totals.1 (b.totals.2.1 + 4294967296 * b.totals.2.2)
            else g
        match g.desc i k with
        | none => g
        | some d => match d.phase with
          | .finished st r0 r1 =>
            let x : Cpl := { tag := dget d.bytes 4 4, status := st, index := k, r0 := r0, r1 := r1, time := g.now
                             irq := (dget d.bytes 1 1).testBit 4 }
            let g := (g.onRing i fun r => { r with flight := r.flight.erase d }).onPart fun p => p.event 4
            if d.orphan then g.onPart fun p => p.inc 0x4064 else g.cplPut i x fault
          | _ => g) ∧
    AggDoes s (.ringResume i good w) (fun g =>
      if g.ringActive i = false then g.onPart fun p => p.accessErr (0x40 + i) (c + 0x58) w true
      else if g.run i = 4 then g.setRun i 1
      else if g.run i ≠ 3 then g.onPart fun p => p.accessErr (0x40 + i) (c + 0x58) w true
      else if g.gateOpen = false then g
      else
        let n := g.ovfOf i + (g.ring i).held.length
        let ok := if g.part.active (0x80 + i) = false then 0 else match good with | some k => k | none => n
        let g := g.resumeWrites i n ok
        if g.ovfOf i = 0 ∧ (g.ring i).held = [] then
          (match (g.ring i).blocked with
            | some b => g.setRun i (if b.waiting then 2 else 1)
            | none => g.setRun i 1)
        else g) ∧
    AggDoes s (.regTimeout (.lane l id)) (fun g => expire g (g.est.reqs.find? fun q => q.lane == some l.val && q.id == id)) ∧
    AggDoes s (.regTimeout (.remote id)) (fun g => expire g (g.est.reqs.find? fun q => q.lane.isNone && q.id == id)) ∧
    AggDoes s (.regTimeout (.load i k)) (fun g => match g.desc i k, g.loadId i k with
      | some d, some (l, id) =>
        if d.phase ≠ .running then g
        else if (dget d.bytes 1 1).testBit 0 = true ∧ d.tries < g.part.fld 0x404C 0 3 then
          (g.putDesc i { d with tries := d.tries + 1, sent := 0, left := 0, written := 0, refused := 0 }).onPart fun p =>
            p.inc 0x4070
        else
          (((g.onEst fun e => { e with loads := e.loads.filter fun x => !(x.1 == l && x.2.1 == id) }).onPart fun p =>
            p.raise 4 19 { detail := leBytes 4 (dget d.bytes 0x18 4) ++ leBytes 2 id ++ leBytes 1 (d.tries + 1) })).descEnd
              i d 7 d.written 0
      | _, _ => g) ∧
    AggDoes s (.regFrame h gdid id op nwords addr data) (fun g => framed g (.regReq gdid id op nwords addr data) fun g =>
      if g.rLocal gdid = false then g.unroutable gdid 3
      else if g.laneUp (g.rPort gdid) = false then g
      else match g.regIssue (g.rPort gdid) gdid (.node h.node id) op nwords addr data false with
        | none => g
        | some g => g) ∧
    AggDoes s (.regFrameResponse h id status nwords data) (fun g => framed g (.regResp id status nwords data) fun g =>
      match g.est.reqs.find? fun q => q.lane.isNone && q.id == id with
      | none => g.onPart fun p => p.inc 0x406C
      | some q => g.regAnswer q status nwords data)

/-- For every ready aggregator, each descriptor command acts on the started descriptor of its ring, index and opcode whose
effect has not begun, and changes nothing where there is none: NOP ends with status 0; SIGNAL writes VALUE to ADDR and
ends 0; REG_READ and REG_WRITE begin their request (no route ends 5, a lane down 12, host data that cannot be read 3);
BULK_LOAD begins (no route ends 5, a remote die 8, a lane down 12) or carries on; RECORDER_READ ends 8 where it may
not read, and else writes the records that fit; ROUTE_WRITE and ROUTE_READ, with firmware running, end 5 beyond the
table and else store or write the entries; FENCE_SET ends 8 where it would take a die of another entry, and else
stores the entry without its reserved bits, joins the dies added and isolates those removed; BCAST at the root starts
its broadcast and ends 8 elsewhere; FW_MSG, with firmware running, is taken as a message. (R4, R275, R325, R337, R338,
R366, R374, R376, R383, R386) -/
def Obligations.DescriptorsTakeTheirEffect : Prop :=
  ∀ (s : State) (i : Fin 64) (k : Nat) (r : HostRead), s.agg.phase = .ready →
    let begun (op : Nat) (f : Desc → Agg → Agg) (g : Agg) : Agg := match g.desc i k with
      | none => g
      | some d => if d.phase = .fetched ∧ dget d.bytes 0 1 = op then f d g else g
    let request (d : Desc) (g : Agg) (op : Nat) (data : List W32) : Agg :=
      let gdid := dget d.bytes 0x18 4
      let n := dget d.bytes 0x20 1
      let a := dget d.bytes 0x1C 4
      let idem := (dget d.bytes 1 1).testBit 0
      if g.routed gdid = false then (g.unroutable gdid 1).descEnd i d 5 0 0
      else if g.rLocal gdid = true then
        if g.laneUp (g.rPort gdid) = false then g.descEnd i d 12 0 0
        else match g.regIssue (g.rPort gdid) gdid (.desc i d.index) op n a data idem with
          | none => g
          | some g => g.putDesc i { d with phase := .running }
      else (g.putDesc i { d with phase := .running }).regSendRemote gdid (.desc i d.index) op n a data idem
    AggDoes s (.nop i k) (begun 0 fun d g => g.descEnd i d 0 0 0) ∧
    AggDoes s (.signal i k) (begun 1 fun d g =>
      (g.hostPut d (dget d.bytes 0x18 8) (leBytes 8 (dget d.bytes 0x20 8))).descEnd i d 0 0 0) ∧
    AggDoes s (.regRead i k) (begun 2 fun d g => request d g 1 []) ∧
    AggDoes s (.regWrite i k r) (begun 3 fun d g =>
      let n := dget d.bytes 0x20 1
      if (dget d.bytes 1 1).testBit 3 then request d g 2 (wordsOf n (d.bytes.drop 0x28))
      else match g.hostGet d r with
        | none => g.descEnd i d 3 0 0
        | some bs => request d g 2 (wordsOf n bs)) ∧
    AggDoes s (.bulkLoad i k r) (fun g => match g.desc i k with
      | none => g
      | some d =>
        let gdid := dget d.bytes 0x18 4
        let off := dget d.bytes 0x20 4
        let len := dget d.bytes 0x24 4
        let l := g.rPort gdid
        let go (g : Agg) (id : Nat) : Agg := match g.hostGet d r with
          | none => g.descEnd i d 3 d.written 0
          | some bs =>
            let (n, o, t) := bulkCells (g.port l) g.part.t id (dget d.bytes 0x1C 1) (off + len) (len / 2040 + 1) (off + d.sent)
              (bs.take (len - d.sent))
            (g.setPort l t).putDesc i { d with phase := .running, sent := o - off, left := d.left + n }
        if dget d.bytes 0 1 ≠ 4 then g
        else match d.phase with
          | .fetched =>
            if g.routed gdid = false then (g.unroutable gdid 1).descEnd i d 5 0 0
            else if g.rLocal gdid = false then g.descEnd i d 8 0 0
            else if g.laneUp l = false then g.descEnd i d 12 0 0
            else
              let id := sget 0 g.est.loadSeq l
              go (g.onEst fun e => { e with
                loadSeq := sput 0 e.loadSeq l ((id + 1) % 65536), loads := e.loads ++ [(l, id, i.val, d.index)] }) id
          | .running => match g.loadId i k with
            | some (_, id) => if d.sent < len then go g id else g
            | none => g
          | .finished .. => g) ∧
    AggDoes s (.recorderRead i k) (begun 5 fun d g =>
      let gdid := dget d.bytes 0x18 4
      let region := dget d.bytes 0x1C 1
      let first := dget d.bytes 0x20 8
      let last := dget d.bytes 0x28 8
      if g.interior = true ∨ g.rLocal gdid = false ∧ ¬ (region ≠ 0 ∧ gdid = 0xFFFFFFFF) then g.descEnd i d 8 0 0
      else
        let es := if region = 0 then
            (sget [] g.conf.rings (g.rPort gdid)).filter fun e => decide (first ≤ e.window ∧ e.window ≤ last)
          else (sget [] g.conf.rings (15 + region)).filter fun e =>
            decide (first ≤ e.time ∧ e.time ≤ last ∧ (gdid = 0xFFFFFFFF ∨ e.gdid = gdid))
        let rs := takeRecords (dget d.bytes 0x38 4) es 0
        let bs := (rs.map fun e => e.header ++ e.bytes).flatten
        (g.hostPut d (dget d.bytes 0x30 8) bs).descEnd i d 0 bs.length rs.length) ∧
    AggDoes s (.routeWrite i k r) (begun 6 fun d g =>
      let gd := dget d.bytes 0x18 4
      let n := dget d.bytes 0x1C 4
      if g.fwRuns = false then g
      else if 262144 < gd + n then g.descEnd i d 5 0 0
      else match g.hostGet d r with
        | none => g.descEnd i d 3 0 0
        | some bs => (g.routePut n gd bs).descEnd i d 0 n 0) ∧
    AggDoes s (.routeRead i k) (begun 7 fun d g =>
      let gd := dget d.bytes 0x18 4
      let n := dget d.bytes 0x1C 4
      if g.fwRuns = false then g
      else if 262144 < gd + n then g.descEnd i d 5 0 0
      else (g.hostPut d (dget d.bytes 0x20 8) (Mem.rdBytes g.est.route (16 * gd) (16 * n))).descEnd i d 0 n 0) ∧
    AggDoes s (.fenceSet i k r) (begun 8 fun d g => match g.hostGet d r with
      | none => g.descEnd i d 3 0 0
      | some bs =>
        let part := dget d.bytes 0x18 2
        let bs := leBytes 2 (dget bs 0 2 % 8) ++ padTo 10 (bs.drop 2) ++ [0, 0, 0, 0]
        let old := g.fMask part
        let new := if (dget bs 0 1).testBit 0 then dget bs 8 2 else 0
        let add := (List.range 16).filter fun l => new.testBit l && !old.testBit l
        let gone := (List.range 16).filter fun l => old.testBit l && !new.testBit l
        if g.fenceTaken part (add.map fun l => 2 ^ l).sum then g.descEnd i d 8 0 0
        else
          let g := g.onEst fun e => { e with fence := Mem.wrBytes e.fence (16 * part) bs }
          let g := add.foldl (fun g l => g.fence l 2 part part) g
          let g := gone.foldl (fun g l => g.fence l 1 0 part) g
          g.descEnd i d 0 add.length gone.length) ∧
    AggDoes s (.bcast i k) (begun 9 fun d g =>
      let f (o n : Nat) : Nat := dget d.bytes o n
      let start := f 0x18 1 == 1
      if g.isRoot = false then g.descEnd i d 8 0 0
      else
        let g := g.putDesc i { d with phase := .running }
        let (e, g) := if start then g.makeEvent 7 0 2 (f 0x30 2) 0xFFFFFFFF (f 0x20 8) (f 0x28 4) 0
          else g.makeEvent 6 (f 0x19 1) 2 (f 0x30 2) 0xFFFFFFFF (f 0x20 8) (f 0x2C 4) (f 0x28 4)
        let expected := if start then f 0x1C 4
          else match g.job (f 0x28 4) with | some j => j.members | none => 0
        g.bcastStart (f 0x18 1) e expected (some (i.val, k)) false) ∧
    AggDoes s (.fwMsg i k r) (begun 10 fun d g =>
      if g.fwRuns = false then g
      else match g.hostGet d r with
        | none => g.descEnd i d 3 0 0
        | some bs => (g.putDesc i { d with phase := .running }).msgTake (.desc i k) bs)

/-- For every ready aggregator: FORWARDED_RECORD from a frame that stands is counted UNROUTABLE without a route, left
alone where the route is LOCAL, and else recorded and counted; ETH_LINK_DOWN counts the codewords and, of a port that
was up, drops it, counts and records it (ETH_RETRAIN the same with cause 3); ETH_LINK_UP sets an ACTIVE port up unless
REF156 is lost; PRP_SUPERVISION with PRP_EN carries time to the next multiple of 2,000 ms and sends its frame;
PRP_LAN_DOWN of an ACTIVE port carries time to 6,000 ms after the last frame, clears LAN_ALIVE and, with PRP_EN,
records it; PTP_MESSAGE of a port that is up counts an exchange’s Delay_Req and measures it on the slave port, counts
a message received (log entry 211) and queues it, counted, out of the other port as a transparent clock with its
residence (not one whose correction says it is too large), or settles the port states; PTP_SYNC_MISSED,
PTP_HOLD_TIMEOUT, PTP_ARM_RESTEP and PTP_DISARM are inputs of the discipline table. In any other state they change
nothing. (R63, R311, R378, R379, R380, R381, R382, R384, R389, R390) -/
def Obligations.EthernetFramesAndTheClock : Prop :=
  ∀ (s : State) (h : EthHdr) (gdid kind : Nat) (bs : List Byte) (i : Fin 2) (cause ok bad : Nat) (m : PtpMsg),
    s.agg.phase = .ready →
    let framed (g : Agg) (b : TreeBody) (f : Agg → Agg) : Agg := if (g.treeIn h b).1 then f (g.treeIn h b).2 else (g.treeIn h b).2
    let e := (8 + i.val) * 0x1000
    let down (cause : Nat) (g : Agg) : Agg :=
      if g.part.bit (e + 0x44) 0 = true then
        g.onPart fun p => ((((p.setBit (e + 0x44) 0 false).setBit (e + 0x44) 1 false).inc (e + 0x70)).raise (8 + i) 16
          { unit := i, detail := leBytes 1 cause ++ leBytes 8 p.now })
      else g
    AggDoes s (.forwardedRecord h gdid kind bs) (fun g => framed g (.record gdid kind bs) fun g =>
      if g.routed gdid = false then g.unroutable gdid 2
      else if g.rLocal gdid = true then g
      else
        let r := g.recRing (subOf kind).1 { time := g.now, port := 0xFF, kind := kind, bytes := bs, gdid := gdid }
        if r.1 then r.2.fwdCount gdid else r.2) ∧
    AggDoes s (.ethLinkDown i cause ok bad) (fun g => down cause (g.onPart fun p => (p.incBy (e + 0x68) ok).incBy (e + 0x6C) bad)) ∧
    AggDoes s (.ethRetrain i) (fun g => g.commanded (e + 0x40) 8 (down 3)) ∧
    AggDoes s (.ethLinkUp i) (fun g =>
      if g.part.active (8 + i) = true ∧ g.part.disc.refLoss = false then
        g.onPart fun p => (p.setBit (e + 0x44) 0 true).setBit (e + 0x44) 1 true
      else g) ∧
    AggDoes s .prpSupervision (fun g =>
      if g.part.bit 0x4100 4 then
        (g.reach ((g.now / 2000000000 + 1) * 2000000000)).ethSend 0x01154E000100 .supervision
      else g) ∧
    AggDoes s (.prpLanDown i) (fun g =>
      if g.part.active (8 + i) then
        let t := sget 0 g.est.lastRx i
        let g := (g.reach (t + 6000000000)).onPart fun p => p.setBit (e + 0x44) 2 false
        if g.part.bit 0x4100 4 then g.onPart fun p => p.raise (8 + i) 17 { unit := i, detail := leBytes 8 t } else g
      else g) ∧
    AggDoes s (.ptpMessage i m) (fun g =>
      if g.ethUp i = false then g
      else match m with
      | .exchange t1 t2 t3 t4 cs cd gm invalid =>
        if g.part.active 4 = false ∨ g.part.fld 0x4104 6 1 ≠ i.val then g
        else
          let g := g.onPart fun p => p.incWrap (e + 0x54) 1
          if invalid then g else
          let mean := sar (((t2 : Int) - t3) + ((t4 : Int) - t1) - cs - cd) 1
          let off := (t2 : Int) - t1 - mean - cs - signed (g.part.fld (e + 0x4C) 0 16) 16 * 256
          let g := g.onPart fun p => ((p.setNum 0x4110 (twos (clampAbs (sar off 12) 0x7FFFFFFF) 32)).setNum 0x4114
            (min 0xFFFFFFFF (sar mean 12).toNat)).setNum64 0x4118 gm
          let g := g.onEst fun e => { e with ptpFrom := g.now }
          if g.part.disc.refLoss then g
          else
            let (x, a) := g.part.disc.measure g.discCfg (-off) g.now
            g.discDo x a (-off)
      | .message c r timed =>
        let g := (g.onPart fun p => ((p.incWrap (e + 0x50) 1).event (8 + i)).setBit (e + 0x44) 2 true).onEst fun x =>
          { x with lastRx := sput 0 x.lastRx i g.now }
        if g.part.bit 0x4100 3 = true ∧ g.ethUp (1 - i) = true ∧ c ≠ 0x7FFFFFFFFFFFFFFF then
          (g.txFrame (1 - i)).ethQueue 8 (.ptp (1 - i) (if timed then c + r else c))
        else g
      | .states slave a b =>
        if g.fwRuns then g.onPart fun p => ((p.setFld 0x4104 6 1 slave.val).setFld 0x8044 4 4 a).setFld 0x9044 4 4 b else g) ∧
    AggDoes s .ptpSyncMissed (fun g =>
      if g.part.active 4 then
        let g := g.reach (g.est.ptpFrom + 3000000000 / 2 ^ g.part.fld 0x4100 16 4)
        let g := g.onEst fun e => { e with ptpFrom := g.now }
        let (x, a) := g.part.disc.miss3 g.discCfg g.now
        g.discDo x a 0
      else g) ∧
    AggDoes s .ptpHoldTimeout (fun g =>
      if g.part.active 4 = true ∧ g.part.disc.state = .holdover then
        let g := g.reach (g.part.disc.holdSince + g.part.num 0x410C)
        let (x, a) := g.part.disc.holdTimeout
        g.discDo x a 0
      else g) ∧
    AggDoes s .ptpArmRestep (fun g => g.commanded 0x4100 2 fun g =>
      g.onPart fun p => { p with disc := { p.disc with armed := true } }) ∧
    AggDoes s .ptpDisarm (fun g => g.commanded 0x4100 4 fun g =>
      g.onPart fun p => { p with disc := { p.disc with armed := false } })

/-- In every state: SUPPLIES_VALID of an aggregator without power resets it with its straps; AGG_POWER_LOSS and a supply
at or below its loss threshold lose every state; a supply of a powered aggregator outside its range raises
SUPPLY_RANGE and one within it ends that; HARDWARE_READY 2 ms after supplies valid or RESET_N rose makes its pages
ACTIVE and starts the board record read; RESET_N_ASSERT holds a powered aggregator; RESET_N_RISE of a held one resets
its registers and samples ID_MODE and HOST_EN again; out of their phase they change nothing. Of a powered aggregator
DRAM_TRAINING_DONE ends complete or faults the DRAM page, REF156_LOSS and REF156_RETURN, THERM_WARN and THERMAL_TRIP
act as stated; of a ready one DRAM_RETRAIN clears TRAINED and TEMP_DERATE records a changed rate. What survives
RESET_N beside limits and memories is the choice of the model (log entry 150). (R54, R65, R405, R408, R439, R440,
R443, R445, R446, R449, R450, R453) -/
def Obligations.ChipSuppliesResetsAndHealth : Prop :=
  ∀ (s : State) (role idMode hostEn : Bool) (i : Fin 8) (v ch mr4 : Nat) (t : W16) (derate : Fin 3)
      (fail : Option (Nat × Nat × Nat)),
    let none_ : Agg := { phase := .off, part := { isAgg := true } }
    let lo := (supplyRange i).1
    let hi := (supplyRange i).2.1
    let keep := (supplyRange i).2.2
    let volt (g : Agg) : Agg := if i.val = 0 then g.onPart fun p => p.setFld 0x64 0 16 v else g
    let temp (g : Agg) (t : W16) : Agg :=
      let g := g.onPart fun p => p.setFld 0x60 0 16 t.toNat
      if signed (g.part.fld 0x68 0 16) 16 < t.toInt then g.onPart fun p => p.raise 0 20 { detail := leBytes 2 t.toNat } else g
    let trained (g : Agg) : Agg := g.onPart fun p =>
      (((p.setFld 0x20044 0 8 0xFF).setBit 0x20044 8 false).setFld 0x2004C 0 16 64).event 0x20
    AggDoes s (.suppliesValid role idMode hostEn) (fun g =>
      if g.phase = .off then
        { phase := .valid, part := ({ isAgg := true } : Part).setFld 0x40 8 3 (b2n role + 2 * b2n idMode + 4 * b2n hostEn) }
      else g) ∧
    AggDoes s .aggPowerLoss (fun _ => none_) ∧
    AggDoes s (.supplyRange i v) (fun g =>
      if g.phase = .off then g
      else if v ≤ keep then none_
      else if lo ≤ v ∧ v ≤ hi then volt g
      else ((volt g).onChip fun c => { c with outOfRange := sput false c.outOfRange i true }).onPart fun p =>
        p.raise 0 21 { unit := i, detail := leBytes 1 i ++ leBytes 2 v }) ∧
    AggDoes s (.supplyWithinRange i v) (fun g =>
      if g.phase ≠ .off ∧ lo ≤ v ∧ v ≤ hi then (volt g).onChip fun c => { c with outOfRange := sput false c.outOfRange i false }
      else g) ∧
    AggDoes s .resetNAssert (fun g =>
      if g.phase = .off ∨ g.phase = .held ∧ g.chip.readyFrom = none then g
      else ({ g with phase := .held }.onPart fun p =>
        (((p.modHdr 0x20 fun h => { h with state := .off }).setBit 0x20044 8 true).setBit 0x4040 0 false).setBit 0x2048 2
          false).onChip fun c => { c with readyFrom := none, reading := false }) ∧
    AggDoes s .hardwareReady (fun g => match g.chip.readyFrom with
      | none => g
      | some x =>
        if g.phase = .valid ∨ g.phase = .held then
          let g := { g.onPart (fun p => p.reach (x + 2000000)) with phase := .ready }
          let g := if g.part.pstate 0x20 ≠ .faulted ∧ g.part.fld 0x20044 0 8 ≠ 0xFF then trained g else g
          let g := [0, 3, 4, 0x20].foldl (fun g p => g.selfActive p) g
          let g := if g.interior then g
            else (List.range 16).foldl (fun g l => (g.selfActive (0x10 + l)).laneAct l fun p s => linkEnable p s (some l)) g
          let g := g.onEst fun e => { e with ptpFrom := g.now }
          (g.onChip fun c => { c with reading := true, readyFrom := none }).vrmDrive
        else g) ∧
    AggDoes s (.resetNRise role idMode hostEn) (fun g =>
      if g.phase ≠ .held ∨ g.chip.readyFrom ≠ none then g
      else
        let p : Part :=
          { isAgg := true
            regs := g.part.regs.filter fun e => resetKeeps e.1
            hdrs := (g.part.hdrs.filter fun e => e.2.lock).map fun e => (e.1, { resetHdr true e.1 with lock := true })
            disc := { refLoss := g.part.disc.refLoss }
            fresh := g.part.fresh }
        let d := g.conf.drift
        let h : Agg :=
          { phase := .held
            part := (p.setFld 0x3044 0 2 (g.part.fld 0x3044 0 2)).setFld 0x40 8 3
              (g.part.fld 0x40 8 1 + 2 * b2n idMode + 4 * b2n hostEn)
            conf := { drift := { entity := d.entity, rules := d.rules, model := d.model }, budget := g.conf.budget
                      topo := g.conf.topo, strag := g.conf.strag, stragAge := g.conf.stragAge, stragTold := g.conf.stragTold
                      stragSeq := g.conf.stragSeq, rings := g.conf.rings, overwritten := g.conf.overwritten }
            lev := g.lev.rebase g.now
            est := { route := g.est.route, fence := g.est.fence }
            chip := { outOfRange := g.chip.outOfRange, tripped := g.chip.tripped, dram := g.chip.dram } }
        let h := h.throttle 0 0
        if role = h.interior then h
        else
          let r := h.part.draw32
          { h with part := r.2.raise 1 16 { detail := leBytes 1 3 ++ leBytes 4 r.1.toNat } }) ∧
    (s.agg.phase ≠ .off →
      AggDoes s (.dramTrainingDone fail) (fun g => match fail with
        | none => trained g
        | some (ch, cause, gib) =>
          let g := g.onPart fun p =>
            let p := if cause = 1 then (p.setFld 0x20044 0 8 0xFF).setBit 0x20044 (ch % 8) false else p.setFld 0x20044 0 8 0xFF
            let p := (p.setFld 0x2004C 0 16 gib).raise 0x20 16 { unit := ch, detail := leBytes 1 ch ++ leBytes 1 cause }
            let p := if p.pstate 0x20 = .off then p.modHdr 0x20 fun h => { h with state := .enabling } else p
            p.pageFault 0x20 16
          (g.onMill fun x => { x with running := none }).fwUpdate) ∧
      AggDoes s .ref156Loss (fun g =>
        if g.part.disc.refLoss then g
        else
          let y := g.part.disc.lose g.discCfg g.now
          let g := (List.range 16).foldl (fun g l => g.laneAct l fun p s => linkRestart p s (some l) 1) (g.discDo y.1 y.2 0)
          (g.ethDown 0 1).ethDown 1 1) ∧
      AggDoes s .ref156Return (fun g =>
        (List.range 16).foldl (fun g l => g.setPort l { g.port l with trainSince := g.now })
          (g.onPart fun p => { p with disc := p.disc.regain })) ∧
      AggDoes s (.thermWarn t) (fun g => temp g t) ∧
      AggDoes s .thermalTrip (fun g =>
        let g := if signed (g.part.fld 0x60 0 16) 16 < 0x7D0 then temp g 0x7D0 else g
        ((g.onChip fun c => { c with tripped := true }).onPart fun p => p.setFld 0x3060 0 16 0xFFFF).vrmDrive)) ∧
    (s.agg.phase = .ready →
      AggDoes s .dramRetrain (fun g => g.commanded 0x20040 1 fun g => g.onPart fun p => p.setFld 0x20044 0 8 0) ∧
      AggDoes s (.tempDerate ch derate mr4) (fun g =>
        if g.part.fld 0x20044 9 2 = derate.val then g
        else g.onPart fun p => (p.setFld 0x20044 9 2 derate.val).raise 0x20 18
          { unit := ch, detail := leBytes 1 ch ++ leBytes 1 mr4 }))

/-- For a die that is up: READ_ALL and READ_ONE are refused with ACCESS_ERR outside ACTIVE or while BUSY and otherwise
begin; IDENT_TARGET_DONE ends the read in progress, replacing the store of an accepted record, and changes nothing
when none is in progress. For a ready aggregator: TOPOLOGY_CHECK of an UP lane of a tray with firmware issues a
GDID_SET, finds agreement or a conflict; BOARD_RECORD_DONE of a read that runs sets RESULT and SIGNED, loads the Levee
limits where none are loaded, and applies TRAY_PARTS and AGG or raises TRAY_ID; PART_RECORD_READ of a listed part with
firmware keeps whether the part is accepted; HEARTBEAT, ATTACH, ATTACH_DONE, DETACH, HOST_TIMEOUT and BUS_LOSS move
the table Host states; PCIE_LINK_UP with HOST_EN shows the link; BAR2_WRITE stores in the staging, ring and mailbox
areas and is counted elsewhere. Otherwise they change nothing. (R336, R337, R360, R362, R397, R401, R402, R403, R404,
R405, R406, R407) -/
def Obligations.IdentityReadsAndTheHost : Prop :=
  ∀ (s : State) (l : Lane) (tgt : Fin 9) (res : IdentRead) (sigOk flit ats : Bool) (item : Nat) (w : W32)
      (cause speed width addr : Nat) (bs : List Byte),
    ((s.die l).Up →
      let start (w : W32) (ts : List Nat) (d : Die) : Die :=
        if d.part.active 0x41 = false ∨ d.part.bit 0x41044 0 = true then d.onPart fun p => p.accessErr 0x41 0x41040 w true
        else (d.onPart fun p => p.setBit 0x41044 0 true).identNext ts
      let failed (t result n : Nat) (d : Die) : Die := d.onPart fun p =>
        let a := 0x41050 + 4 * t
        (((p.setFld a 0 3 result).setBit a 4 true).inc 0x4104C).raise 0x41 16
          { unit := t, detail := leBytes 1 t ++ leBytes 1 result ++ leBytes 2 n ++ leBytes 1 (p.fld (0x41080 + 4 * t) 0 7) }
      DieDoes s (.readAll l) l (fun d => d.commanded 0x41040 1 fun d =>
        start (d.part.kept false 0x41040 ||| 1) [0, 1, 2, 3, 4, 5, 6, 7, 8] d) ∧
      DieDoes s (.readOne l tgt) l (fun d => d.admitted 0x41040 (BitVec.ofNat 32 (2 + 256 * tgt.val)) fun d =>
        start (BitVec.ofNat 32 (2 + 256 * tgt.val)) [tgt.val] d) ∧
      DieDoes s (.identTargetDone l res) l (fun d => match d.ident.left with
        | [] => d
        | t :: ts =>
          let d := d.onPart fun p => (p.stageDone 0x41 0 t).2
          let d := match res with
            | .absent => failed t 2 0 d
            | .readErr n => failed t 3 n d
            | .record bs =>
              match idJudge bs [if t = 0 then 1 else 2] with
              | (1, ss) =>
                let d := (d.onIdent fun i =>
                  { i with stores := Mem.wrBytes i.stores (16384 * t) (padTo 16384 bs) }).onPart fun p =>
                    let a := 0x41050 + 4 * t
                    (((((p.setFld a 0 3 1).setBit a 3 (idSigned bs)).setBit a 4 false).setFld a 8 8
                      (p.fld a 8 8 + 1)).setFld a 16 15 bs.length).event 0x41
                if t = 0 then match idSect ss 1 with
                  | some b => d.loadPeriods b
                  | none => d
                else d
              | (n, _) => failed t n bs.length d
          if d.part.active 0x41 then d.identNext ts else d.identNext [])) ∧
    (s.agg.phase = .ready →
      let gone (cause : Nat) (g : Agg) : Agg := ((g.setHost 3).gateClose).onPart fun p => (p.inc 0x20B0).raiseEach 2 20
        { detail := leBytes 1 cause ++ leBytes 2 g.generation ++ leBytes 8 (p.num64 0x2058) }
      AggDoes s (.topologyCheck l) (fun g =>
        let id := g.peer l
        if g.interior = true ∨ g.fwRuns = false ∨ g.laneUp l = false then g
        else if 0xFFFE0000 ≤ id then
          match g.routeOfLane l with
          | none => g
          | some x => match g.regIssue l x (.topology x) 2 1 0x44 [BitVec.ofNat 32 x] false with
            | none => g
            | some g => g
        else match (List.range 16).find? fun k => k != l.val && g.laneUp k && g.peer k == id with
        | some k => (g.idConflict l k).idConflict k l
        | none => match g.routeOfLane l with
          | some x =>
            if x = id then g.onChip fun c => { c with recheck := sput false c.recheck l false } else g.idConflict l 0xFF
          | none => if g.routed id then g.idConflict l 0xFF else g) ∧
      AggDoes s (.boardRecordDone res sigOk) (fun g =>
        if g.chip.reading = false then g
        else
          let g := g.onChip fun c => { c with reading := false }
          let (r, ss, bs) : Nat × List (Nat × List Byte) × List Byte := match res with
            | .absent => (2, [], [])
            | .readErr n => (3, [], List.replicate n 0)
            | .record bs =>
              let (j, ss) := idJudge bs [6, 7]
              if j = 1 ∧ idSigned bs = true ∧ sigOk = false then (6, [], bs) else (j, ss, bs)
          let trusted := r = 1 && idSigned bs
          let g := g.onPart fun p => (p.setFld 0x40 0 3 r).setBit 0x40 3 trusted
          let g := if g.part.bit 0x3044 0 then g
            else if trusted then (match idSect ss 0x21 with | some b => g.loadLevee b | none => g.loadBuiltIn 1)
            else g.loadBuiltIn (if r = 1 ∨ r = 6 then 2 else if r = 2 ∨ r = 3 then 1 else 3)
          let g := match idSect ss 0x22 with
            | some b =>
              let ps := readParts (min 4096 (b.length / 4)) b
              (g.onChip fun c => { c with parts := ps }).onPart fun p => p.setFld 0x4C 0 13 ps.length
            | none => g
          match idSect ss 0x20 with
          | some b => g.applyAgg b
          | none => g.onPart fun p => p.raiseEach 0 16
              { detail := leBytes 1 r ++ leBytes 1 (b2n (r == 6)) ++ leBytes 4 bs.length }) ∧
      AggDoes s (.partRecordRead item res) (fun g =>
        if g.fwRuns = false then g
        else match g.chip.parts[item]? with
        | none => g
        | some (kind, bus, at_, _) =>
          let r := match res with
            | .absent => 2
            | .readErr _ => 3
            | .record bs => (idJudge bs [kind]).1
          let g := g.onChip fun c => { c with accepted := sput false c.accepted item (r == 1) }
          let g := g.onPart fun p => p.setFld 0x4C 16 13 g.chip.accepted.length
          if r = 1 then g
          else g.onPart fun p => p.raise 0 17
            { unit := item, detail := leBytes 1 item ++ leBytes 1 kind ++ leBytes 1 r ++ leBytes 1 bus ++ leBytes 1 at_ }) ∧
      AggDoes s (.heartbeat w) (fun g => g.admitted 0x204C w fun g =>
        if w.toNat / 65536 = g.generation then
          let timed := g.onMill fun x => { x with hbFrom := g.now }
          if g.hostState = 1 then timed
          else if g.hostState = 2 then timed.onPart fun p => p.setNum64 0x2058 p.now
          else g
        else g.onPart fun p => (p.inc 0x20AC).raise 2 24
          { detail := leBytes 2 (w.toNat / 65536) ++ leBytes 2 g.generation ++ [0] }) ∧
      AggDoes s (.attach w) (fun g => g.admitted 0x2050 w fun g =>
        if w.toNat / 65536 = (g.generation + 1) % 65536 then
          let g := if g.gateOpen then g.gateClose else g
          let g := (g.setHost 1).onPart fun p => p.setFld 0x2048 16 16 (w.toNat / 65536)
          (g.ringsReset.pairsReset).onMill fun x => { x with hbFrom := g.now }
        else g.onPart fun p => p.accessErr 2 0x2050 w true) ∧
      AggDoes s .attachDone (fun g => g.commanded 0x2040 2 fun g => match g.hostState with
        | 0 => g
        | 1 =>
          let x := g.mill.absentFrom
          let g := (g.setHost 2).gateOpens
          let g := match x with | some t => g.absentSummary t | none => g
          g.onPart fun p => p.raise 2 21
            { detail := leBytes 2 g.generation ++ leBytes 8 (match x with | some t => t | none => 0) }
        | _ => g.onPart fun p => p.accessErr 2 0x2040 (p.kept true 0x2040 ||| 2) true) ∧
      AggDoes s .detach (fun g => g.commanded 0x2040 4 fun g => match g.hostState with
        | 1 => g.setHost 0
        | 2 => (g.setHost 0).gateClose
        | _ => g) ∧
      AggDoes s .hostTimeout (fun g =>
        if g.part.bit 0x2040 0 = true ∧ (g.hostState = 1 ∨ g.hostState = 2) then
          gone 1 (g.reach (g.mill.hbFrom + g.part.num 0x2054 * 1000000))
        else g) ∧
      AggDoes s (.busLoss cause) (fun g =>
        let g := g.onPart fun p => (p.raise 4 20
          { detail := leBytes 1 cause ++ leBytes 1 (p.fld 0x4040 1 3) ++ leBytes 1 (p.fld 0x4040 4 3) }).setBit 0x4074 2 true
        let g := if cause = 1 then g.onPart fun p => p.setBit 0x4040 0 false
          else if cause = 3 then (g.onPart fun p => p.setBit 0x4040 8 false).onEst fun e => { e with msix := [] }
          else g
        if g.hostState = 1 ∨ g.hostState = 2 then gone 2 g else g) ∧
      AggDoes s (.pcieLinkUp speed width flit ats) (fun g =>
        if g.part.bit 0x40 10 then g.onPart fun p => p.setFld 0x4040 0 9
          (1 + 2 * (speed % 8) + 16 * (width % 8) + 128 * b2n (flit || speed == 6) + 256 * b2n ats)
        else g) ∧
      AggDoes s (.bar2Write addr bs) (fun g =>
        let stored := g.onChip fun c => { c with dram := Mem.wrBytes c.dram addr (bs.take (4096 - addr % 4096)) }
        let refused := g.onPart fun p => p.inc 0x4068
        let firmware := g.onPart fun p => p.inc 0x20B4
        if 0xF80000000 ≤ addr ∧ addr < 0xF88000000 then firmware
        else if 0xF8C000000 ≤ addr ∧ addr < 0xF90000000 then firmware
        else if g.part.active 0x20 = false then refused
        else if addr < 0xF80000000 then refused
        else if addr < 0xF8C000000 then
          (if g.updPhase = 1 ∨ g.updPhase = 3 then firmware
           else if g.updPhase = 2 then (stored.onMill fun x => { x with staged := none }).setPhase 0
           else stored)
        else if addr < 0xF91000000 then stored
        else if addr < 0xFA0000000 then refused
        else if addr < 0x1000000000 then stored
        else refused))
end

