-- ==== Sys2Proof/Laws/State.lean ====
section
/-! SUPPORT. What each update of the block's state does to each field, and what a command's frame comes to once its part
takes it. -/

namespace Sys2Proof.Machine

open Sys2Proof

variable (s : State) (l k : Lane) (f f' : Die → Die) (g : Agg → Agg) (d : Die) (a : Agg)

/-! ### State -/

@[simp] theorem State.onDie_pending : (s.onDie l f).pending = s.pending := rfl
@[simp] theorem State.onDie_agg : (s.onDie l f).agg = s.agg := rfl
@[simp] theorem State.onAgg_pending : (s.onAgg g).pending = s.pending := rfl
@[simp] theorem State.onAgg_dies : (s.onAgg g).dies = s.dies := rfl
@[simp] theorem State.onAgg_agg : (s.onAgg g).agg = g s.agg := rfl
@[simp] theorem State.onAgg_die : (s.onAgg g).die l = s.die l := rfl
@[simp] theorem State.onDie_die : (s.onDie l f).die l = f (s.die l) := by
  simp [State.onDie, State.die]
theorem State.onDie_other (h : k ≠ l) : (s.onDie l f).die k = s.die k := by
  have h' : (l : Nat) ≠ k := fun e => h (Fin.ext e.symm)
  simp [State.onDie, State.die, h']
theorem State.onDie_congr (h : f (s.die l) = f' (s.die l)) : s.onDie l f = s.onDie l f' := by
  simp [State.onDie, h]
theorem State.onAgg_congr {g g' : Agg → Agg} (h : g s.agg = g' s.agg) : s.onAgg g = s.onAgg g' := by
  simp [State.onAgg, h]
@[simp] theorem State.pending_die (cs : List Instr) : ({ s with pending := cs } : State).die l = s.die l := rfl

/-! ### Die -/

variable (u : Part → Part)

@[simp] theorem Die.onPart_part : (d.onPart u).part = u d.part := rfl
@[simp] theorem Die.onPart_powered : (d.onPart u).powered = d.powered := rfl
@[simp] theorem Die.onPart_ready : (d.onPart u).ready = d.ready := rfl
@[simp] theorem Die.onPart_irq : (d.onPart u).irq = d.irq := rfl
@[simp] theorem Die.onPart_port : (d.onPart u).port = d.port := rfl
@[simp] theorem Die.onPart_spring : (d.onPart u).spring = d.spring := rfl
@[simp] theorem Die.onPart_hw : (d.onPart u).hw = d.hw := rfl
@[simp] theorem Die.onPart_mon : (d.onPart u).mon = d.mon := rfl
@[simp] theorem Die.onPart_ties : (d.onPart u).ties = d.ties := rfl
@[simp] theorem Die.onPart_riffle : (d.onPart u).riffle = d.riffle := rfl
@[simp] theorem Die.onPart_eddy : (d.onPart u).eddy = d.eddy := rfl
@[simp] theorem Die.onPart_gauge : (d.onPart u).gauge = d.gauge := rfl
@[simp] theorem Die.onPart_oxbow : (d.onPart u).oxbow = d.oxbow := rfl
@[simp] theorem Die.onPart_bore : (d.onPart u).bore = d.bore := rfl
@[simp] theorem Die.onPart_meander : (d.onPart u).meander = d.meander := rfl
@[simp] theorem Die.onPart_ident : (d.onPart u).ident = d.ident := rfl
@[simp] theorem Die.onPart_glob : (d.onPart u).glob = d.glob := rfl

@[simp] theorem Die.begin_ready : d.begin_.ready = d.ready := rfl
@[simp] theorem Die.begin_powered : d.begin_.powered = d.powered := rfl
@[simp] theorem Die.begin_out : d.begin_.part.out = [] := rfl
@[simp] theorem Die.begin_hdr (page : Nat) : d.begin_.part.hdr page = d.part.hdr page := rfl
@[simp] theorem Die.begin_pstate (page : Nat) : d.begin_.part.pstate page = d.part.pstate page := rfl
@[simp] theorem Die.begin_rd (x : Nat) : d.begin_.part.rd x = d.part.rd x := rfl
@[simp] theorem Die.begin_disc : d.begin_.part.disc = d.part.disc := rfl
@[simp] theorem Die.begin_isAgg : d.begin_.part.isAgg = d.part.isAgg := rfl

/-! ### Aggregator -/

@[simp] theorem Agg.onPart_part : (a.onPart u).part = u a.part := rfl
@[simp] theorem Agg.onPart_phase : (a.onPart u).phase = a.phase := rfl
@[simp] theorem Agg.onPart_faultN : (a.onPart u).faultN = a.faultN := rfl
@[simp] theorem Agg.onPart_ports : (a.onPart u).ports = a.ports := rfl
@[simp] theorem Agg.onPart_conf : (a.onPart u).conf = a.conf := rfl
@[simp] theorem Agg.onPart_mill : (a.onPart u).mill = a.mill := rfl
@[simp] theorem Agg.onPart_lev : (a.onPart u).lev = a.lev := rfl
@[simp] theorem Agg.onPart_est : (a.onPart u).est = a.est := rfl
@[simp] theorem Agg.onPart_chip : (a.onPart u).chip = a.chip := rfl
@[simp] theorem Agg.begin_phase : a.begin_.phase = a.phase := rfl
@[simp] theorem Agg.begin_hdr (page : Nat) : a.begin_.part.hdr page = a.part.hdr page := rfl
@[simp] theorem Agg.begin_pstate (page : Nat) : a.begin_.part.pstate page = a.part.pstate page := rfl
@[simp] theorem Agg.begin_rd (x : Nat) : a.begin_.part.rd x = a.part.rd x := rfl

/-! ### Commands taken by their part -/

theorem State.dieReady_up (h : (s.die l).Up) :
    s.dieReady l f = .next (s.onDie l fun d => (f d.begin_).finish) := by
  simp only [State.dieReady]
  exact congrArg Host.Outcome.next (s.onDie_congr l _ _ (by simp [Die.whenReady, h.1, h.2]))

theorem State.diePowered_up (h : (s.die l).powered = true) :
    s.diePowered l f = .next (s.onDie l fun d => (f d.begin_).finish) := by
  simp only [State.diePowered]
  exact congrArg Host.Outcome.next (s.onDie_congr l _ _ (by simp [Die.whenPowered, h]))

theorem State.aggReady_ready (h : s.agg.phase = .ready) :
    s.aggReady g = .next (s.onAgg fun x => (g x.begin_).finish) := by
  simp only [State.aggReady]
  exact congrArg Host.Outcome.next (s.onAgg_congr (by simp [Agg.whenReady, h]))

theorem State.aggPowered_ready (h : s.agg.phase = .ready) :
    s.aggPowered g = .next (s.onAgg fun x => (g x.begin_).finish) := by
  simp only [State.aggPowered]
  exact congrArg Host.Outcome.next (s.onAgg_congr (by simp [Agg.whenPowered, h]))

/-- A command that a die takes from ready on does what its meaning says of that die. -/
theorem dieDoes_of_ready {c : Instr} (hx : exec c s = s.dieReady l f) (hu : (s.die l).Up)
    (h : f (s.die l).begin_ = f' (s.die l).begin_) : DieDoes s c l f' := by
  rw [DieDoes, hx, s.dieReady_up l f hu]
  exact congrArg Host.Outcome.next (s.onDie_congr l _ _ (by simp [h]))

/-- A command that a die takes while it has power does what its meaning says of that die. -/
theorem dieDoes_of_powered {c : Instr} (hx : exec c s = s.diePowered l f) (hu : (s.die l).Up)
    (h : f (s.die l).begin_ = f' (s.die l).begin_) : DieDoes s c l f' := by
  rw [DieDoes, hx, s.diePowered_up l f hu.1]
  exact congrArg Host.Outcome.next (s.onDie_congr l _ _ (by simp [h]))

/-- A command that the aggregator takes from hardware-ready on does what its meaning says. -/
theorem aggDoes_of_ready {c : Instr} {g g' : Agg → Agg} (hx : exec c s = s.aggReady g) (hu : s.agg.phase = .ready)
    (h : g s.agg.begin_ = g' s.agg.begin_) : AggDoes s c g' := by
  rw [AggDoes, hx, s.aggReady_ready g hu]
  exact congrArg Host.Outcome.next (s.onAgg_congr (by simp [h]))

/-- A command that the aggregator takes in reset too does what its meaning says while it is ready. -/
theorem aggDoes_of_powered {c : Instr} {g g' : Agg → Agg} (hx : exec c s = s.aggPowered g) (hu : s.agg.phase = .ready)
    (h : g s.agg.begin_ = g' s.agg.begin_) : AggDoes s c g' := by
  rw [AggDoes, hx, s.aggPowered_ready g hu]
  exact congrArg Host.Outcome.next (s.onAgg_congr (by simp [h]))

/-- A command that the chip takes from supplies valid on does what its meaning says. -/
theorem aggDoes_of_supplied {c : Instr} {g g' : Agg → Agg} (hx : exec c s = s.aggSupplied g) (hu : s.agg.phase ≠ .off)
    (h : g s.agg.begin_ = g' s.agg.begin_) : AggDoes s c g' := by
  rw [AggDoes, hx, State.aggSupplied]
  exact congrArg _ (s.onAgg_congr (by rw [Agg.whenSupplied, if_neg hu, h]))

/-- A command about the aggregator's supplies and resets does what its meaning says. -/
theorem aggDoes_of_always {c : Instr} {g g' : Agg → Agg} (hx : exec c s = s.aggAlways g)
    (h : g s.agg.begin_ = g' s.agg.begin_) : AggDoes s c g' := by
  rw [AggDoes, hx, State.aggAlways]
  exact congrArg Host.Outcome.next (s.onAgg_congr (by simp [Agg.always, h]))

theorem Die.admitted_congr {f f' : Die → Die} (x : Nat) (w : W32) (h : f d = f' d) : d.admitted x w f = d.admitted x w f' := by
  simp [Die.admitted, h]
theorem Agg.admitted_congr {f f' : Agg → Agg} (x : Nat) (w : W32) (h : f a = f' a) : a.admitted x w f = a.admitted x w f' := by
  simp [Agg.admitted, h]

/-- A write of PAGE_CTL, and of a header word the driver may not write, is never turned away by an injection. -/
theorem Die.admitted_hdr {f : Die → Die} (x : Nat) (w : W32) (h : x % 0x1000 < 0x40)
    (h' : x % 0x1000 ≠ 0x10 ∧ x % 0x1000 ≠ 0x14 ∧ x % 0x1000 ≠ 0x1C) : d.admitted x w f = f d := by
  have h1 : ¬ 0x40 ≤ x % 0x1000 := by omega
  simp [Die.admitted, Part.accessFault, h1, h'.1, h'.2.1, h'.2.2]
theorem Agg.admitted_hdr {f : Agg → Agg} (x : Nat) (w : W32) (h : x % 0x1000 < 0x40)
    (h' : x % 0x1000 ≠ 0x10 ∧ x % 0x1000 ≠ 0x14 ∧ x % 0x1000 ≠ 0x1C) : a.admitted x w f = f a := by
  have h1 : ¬ 0x40 ≤ x % 0x1000 := by omega
  simp [Agg.admitted, Part.accessFault, h1, h'.1, h'.2.1, h'.2.2]

theorem Die.writePort_ready (h : d.ready = true) (x : Nat) (w : W32) (e : Ecc) : d.writePort x w e = d.regWrite x w e := by
  simp [Die.writePort, Die.access, h]

theorem Die.strobe_ready (h : d.ready = true) (x b : Nat) :
    d.strobe x b = d.regWrite x (d.part.kept false x ||| BitVec.ofNat 32 b) .ok := by
  simp [Die.strobe, Die.access, h]

end Sys2Proof.Machine
end

