-- ==== Sys2Proof/Laws/Access.lean ====
section
/-! SUPPORT. What a register write comes to: a word of the common header, a block register word, and a word written for its
command bits alone. -/

namespace Sys2Proof.Machine

open Sys2Proof

/-! ### Field arithmetic -/

theorem bitsOf_lt (x lo w : Nat) : bitsOf x lo w < 2 ^ w := Nat.mod_lt _ (Nat.two_pow_pos w)

/-- A write that carries every RW and RWL field's value, and no W1C bit, leaves the word as it is. -/
theorem mergeWord_same (r : RegSpec) (old w : Nat)
    (hv : ∀ f ∈ r.fields, f.acc = .rw ∨ f.acc = .rwl → bitsOf w f.lo f.w = bitsOf old f.lo f.w)
    (hc : ∀ f ∈ r.fields, f.acc = .w1c → bitsOf w f.lo f.w = 0)
    (hb : ∀ f ∈ r.fields, bitsOf old f.lo f.w * 2 ^ f.lo ≤ old) : mergeWord r old w = old := by
  have key : ∀ fs : List FieldSpec, (∀ f ∈ fs, f ∈ r.fields) →
      fs.foldl (fun x f =>
        match f.acc with
        | .rw => x - bitsOf x f.lo f.w * 2 ^ f.lo + bitsOf w f.lo f.w * 2 ^ f.lo
        | .rwl => x - bitsOf x f.lo f.w * 2 ^ f.lo + bitsOf w f.lo f.w * 2 ^ f.lo
        | .w1c => x - (bitsOf x f.lo f.w &&& bitsOf w f.lo f.w) * 2 ^ f.lo
        | _ => x) old = old := by
    intro fs
    induction fs with
    | nil => intro _; rfl
    | cons f fs ih =>
      intro hm
      have hf := hm f (by simp)
      have hle := hb f hf
      have step : (match f.acc with
        | .rw => old - bitsOf old f.lo f.w * 2 ^ f.lo + bitsOf w f.lo f.w * 2 ^ f.lo
        | .rwl => old - bitsOf old f.lo f.w * 2 ^ f.lo + bitsOf w f.lo f.w * 2 ^ f.lo
        | .w1c => old - (bitsOf old f.lo f.w &&& bitsOf w f.lo f.w) * 2 ^ f.lo
        | _ => old) = old := by
        rcases ha : f.acc with _ | _ | _ | _ | _ | _ <;> simp only []
        · rw [hv f hf (.inl ha)]; omega
        · rw [hc f hf ha]; simp
        · rw [hv f hf (.inr ha)]; omega
      simp only [List.foldl_cons, step]
      exact ih fun g hg => hm g (by simp [hg])
  exact key r.fields fun f hf => hf

theorem bitsOf_scaled_le (x lo w : Nat) : bitsOf x lo w * 2 ^ lo ≤ x := by
  unfold bitsOf
  calc x / 2 ^ lo % 2 ^ w * 2 ^ lo ≤ x / 2 ^ lo * 2 ^ lo := Nat.mul_le_mul_right _ (Nat.mod_le _ _)
    _ ≤ x := Nat.div_mul_le_self _ _

/-- A write that changes no field is refused for none (R38). -/
theorem fieldRefused_same (lock fixed : Bool) (old w : Nat) (f : FieldSpec)
    (hv : f.acc = .rw ∨ f.acc = .rwl → bitsOf w f.lo f.w = bitsOf old f.lo f.w) :
    fieldRefused lock fixed old w f = false := by
  unfold fieldRefused
  rcases ha : f.acc with _ | _ | _ | _ | _ | _ <;> simp only []
  · rw [hv (.inl ha)]; simp
  · rw [hv (.inr ha)]; simp

/-! ### Header words -/

theorem Die.regWrite_hdr (d : Die) (page o : Nat) (ho : o < 0x40) (ha : o % 4 = 0) (hd : page * 4096 + o ≠ 0x1001C)
    (hc : (dieClass page).isSome = true) (w : W32) (e : Ecc) :
    d.regWrite (hdrAddr page o) w e =
      d.admitted (hdrAddr page o) w fun d => if o = 4 then d.pageCtl page w else d.onPart fun p => p.hdrWrite page o w := by
  have h1 : hdrAddr page o / 0x1000 = page := by unfold hdrAddr; omega
  have h2 : o / 4 * 4 = o := by omega
  have h3 : hdrAddr page o % 0x1000 = o := by unfold hdrAddr; omega
  unfold Die.regWrite Die.admitted
  simp only [h1, h3, h2]
  cases h : dieClass page with
  | none => simp [h] at hc
  | some c => simp [assigned, pageClass, h, ho, hd]

theorem Agg.barWrite_hdr (g : Agg) (page o : Nat) (ho : o < 0x40) (ha : o % 4 = 0) (hc : (aggClass page).isSome = true)
    (w : W32) (e : Ecc) :
    g.barWrite (hdrAddr page o) w e =
      g.admitted (hdrAddr page o) w fun g => if o = 4 then g.pageCtl page w else g.onPart fun p => p.hdrWrite page o w := by
  have h1 : hdrAddr page o / 0x1000 = page := by unfold hdrAddr; omega
  have h2 : o / 4 * 4 = o := by omega
  have h3 : hdrAddr page o % 0x1000 = o := by unfold hdrAddr; omega
  unfold Agg.barWrite Agg.admitted
  simp only [h1, h3, h2]
  cases h : aggClass page with
  | none => simp [h] at hc
  | some c => simp [assigned, pageClass, h, ho]

/-! ### Command words -/

theorem testBit_bitsOf (x lo w j : Nat) : (bitsOf x lo w).testBit j = (decide (j < w) && x.testBit (j + lo)) := by
  unfold bitsOf
  rw [Nat.testBit_mod_two_pow, Nat.testBit_div_two_pow]

theorem testBit_scaled (x lo w i : Nat) :
    (bitsOf x lo w * 2 ^ lo).testBit i = (decide (lo ≤ i ∧ i < lo + w) && x.testBit i) := by
  rw [Nat.testBit_mul_two_pow, testBit_bitsOf]
  by_cases h : lo ≤ i
  · have e : i - lo + lo = i := by omega
    rw [e]
    by_cases h2 : i < lo + w
    · have : i - lo < w := by omega
      simp [h, h2, this]
    · have : ¬ i - lo < w := by omega
      simp [h2, this]
  · simp [h]

theorem testBit_keptFold (x : Nat) (fs : List FieldSpec) (n i : Nat) :
    (fs.foldl (fun y f => y ||| bitsOf x f.lo f.w * 2 ^ f.lo) n).testBit i =
      (n.testBit i || (fs.any (fun f => decide (f.lo ≤ i ∧ i < f.lo + f.w)) && x.testBit i)) := by
  induction fs generalizing n with
  | nil => simp
  | cons f fs ih =>
    rw [List.foldl_cons, ih, Nat.testBit_or, testBit_scaled, List.any_cons]
    cases n.testBit i <;> cases x.testBit i <;> simp

/-- A row whose command bits `b` touch no RW, RWL or W1C field, with its W1C fields apart from the others. -/
def commandBits (r : RegSpec) (b : Nat) : Bool :=
  decide (b < 2 ^ 32) &&
    r.fields.all (fun f => decide (f.lo + f.w ≤ 32) &&
      (!(f.acc == .rw || f.acc == .rwl || f.acc == .w1c) || bitsOf b f.lo f.w == 0) &&
      (!(f.acc == .w1c) || r.fields.all fun g =>
        !(g.acc == .rw || g.acc == .rwl) || decide (g.lo + g.w ≤ f.lo) || decide (f.lo + f.w ≤ g.lo)))

/-- The word that holds what the fields hold and sets command bits. -/
theorem commandWord_testBit (p : Part) (isAgg : Bool) (addr b i : Nat) (r : RegSpec) (k : Nat)
    (hs : specOf isAgg (addr / 0x1000) (addr % 0x1000) = some (r, k)) (hb : b < 2 ^ 32) (hi : i < 32) :
    (p.kept isAgg addr ||| BitVec.ofNat 32 b).toNat.testBit i =
      (((r.fields.filter fun f => f.acc == .rw || f.acc == .rwl).any (fun f => decide (f.lo ≤ i ∧ i < f.lo + f.w)) &&
        (p.num addr).testBit i) || b.testBit i) := by
  have e : (fun (x : Nat) (f : FieldSpec) => x ||| p.fld addr f.lo f.w * 2 ^ f.lo) =
      fun x f => x ||| bitsOf (p.num addr) f.lo f.w * 2 ^ f.lo := rfl
  simp only [Part.kept, hs, e, BitVec.toNat_or, BitVec.toNat_ofNat, Nat.testBit_or, Nat.testBit_mod_two_pow, hi,
    testBit_keptFold, Nat.mod_eq_of_lt hb, decide_true, Bool.true_and, Nat.zero_testBit, Bool.false_or]

theorem commandWord_field (p : Part) (isAgg : Bool) (addr b : Nat) (r : RegSpec) (k : Nat)
    (hs : specOf isAgg (addr / 0x1000) (addr % 0x1000) = some (r, k)) (hc : commandBits r b = true) (f : FieldSpec)
    (hf : f ∈ r.fields) (ha : f.acc = .rw ∨ f.acc = .rwl) :
    bitsOf (p.kept isAgg addr ||| BitVec.ofNat 32 b).toNat f.lo f.w = bitsOf (p.num addr) f.lo f.w := by
  simp only [commandBits, Bool.and_eq_true, decide_eq_true_eq, List.all_eq_true] at hc
  obtain ⟨hb, hall⟩ := hc
  obtain ⟨⟨h32, hz⟩, -⟩ := hall f hf
  have hz : bitsOf b f.lo f.w = 0 := by rcases ha with ha | ha <;> simpa [ha] using hz
  apply Nat.eq_of_testBit_eq
  intro j
  rw [testBit_bitsOf, testBit_bitsOf]
  by_cases hj : j < f.w
  · have hbj : b.testBit (j + f.lo) = false := by
      have := congrArg (fun x => x.testBit j) hz
      simpa [testBit_bitsOf, hj] using this
    rw [commandWord_testBit p isAgg addr b (j + f.lo) r k hs hb (by omega), hbj]
    have hany : (r.fields.filter fun f => f.acc == .rw || f.acc == .rwl).any
        (fun g => decide (g.lo ≤ j + f.lo ∧ j + f.lo < g.lo + g.w)) = true := by
      rw [List.any_eq_true]
      exact ⟨f, by rcases ha with ha | ha <;> simp [hf, ha], by simp; omega⟩
    rw [hany]; simp [hj]
  · simp [hj]

theorem commandWord_w1c (p : Part) (isAgg : Bool) (addr b : Nat) (r : RegSpec) (k : Nat)
    (hs : specOf isAgg (addr / 0x1000) (addr % 0x1000) = some (r, k)) (hc : commandBits r b = true) (f : FieldSpec)
    (hf : f ∈ r.fields) (ha : f.acc = .w1c) : bitsOf (p.kept isAgg addr ||| BitVec.ofNat 32 b).toNat f.lo f.w = 0 := by
  simp only [commandBits, Bool.and_eq_true, decide_eq_true_eq, List.all_eq_true] at hc
  obtain ⟨hb, hall⟩ := hc
  obtain ⟨⟨h32, hz⟩, hd⟩ := hall f hf
  have hz : bitsOf b f.lo f.w = 0 := by simpa [ha] using hz
  apply Nat.eq_of_testBit_eq
  intro j
  rw [testBit_bitsOf]
  by_cases hj : j < f.w
  · have hbj : b.testBit (j + f.lo) = false := by
      have := congrArg (fun x => x.testBit j) hz
      simpa [testBit_bitsOf, hj] using this
    rw [commandWord_testBit p isAgg addr b (j + f.lo) r k hs hb (by omega), hbj]
    have hany : (r.fields.filter fun f => f.acc == .rw || f.acc == .rwl).any
        (fun g => decide (g.lo ≤ j + f.lo ∧ j + f.lo < g.lo + g.w)) = false := by
      rw [List.any_eq_false]
      intro g hg
      rw [List.mem_filter] at hg
      simp only [ha, beq_self_eq_true, Bool.not_true, Bool.false_or, List.all_eq_true, Bool.or_eq_true,
        Bool.not_eq_true', decide_eq_true_eq] at hd
      have := hd g hg.1
      simp only [decide_eq_true_eq]
      rcases this with (h | h) | h
      · simp [h] at hg
      · omega
      · omega
    rw [hany]; simp
  · simp [hj]

/-- A word of a die written for its command bits alone changes no field and is refused for none: it only commands. -/
theorem Die.blockWrite_command (d : Die) (addr b : Nat) (r : RegSpec) (k : Nat)
    (hs : specOf false (addr / 0x1000) (addr % 0x1000) = some (r, k)) (hc : commandBits r b = true)
    (hm : d.maskWrite addr (d.part.kept false addr ||| BitVec.ofNat 32 b) = some (d.part.kept false addr ||| BitVec.ofNat 32 b))
    (hr : d.writeRefused addr (d.part.num addr) (d.part.num addr) (d.part.kept false addr ||| BitVec.ofNat 32 b) = false)
    (hx : Die.cmdConflict addr (d.part.kept false addr ||| BitVec.ofNat 32 b) = false) (h48 : ¬ (addr = 0x18048 ∨ addr = 0x18088)) :
    d.blockWrite addr (d.part.kept false addr ||| BitVec.ofNat 32 b) =
      d.writeActs addr (d.part.num addr) (d.part.kept false addr ||| BitVec.ofNat 32 b) := by
  have hv := commandWord_field d.part false addr b r k hs hc
  have hw := commandWord_w1c d.part false addr b r k hs hc
  have e : (d.part.rd addr).toNat = d.part.num addr := rfl
  have hn := mergeWord_same r (d.part.num addr) (d.part.kept false addr ||| BitVec.ofNat 32 b).toNat hv hw
    fun f _ => bitsOf_scaled_le _ _ _
  have hf : ∀ lock, r.fields.any (fieldRefused lock (d.staticFixed addr) (d.part.num addr)
      (d.part.kept false addr ||| BitVec.ofNat 32 b).toNat) = false := by
    intro lock
    rw [List.any_eq_false]
    intro f hfm
    rw [fieldRefused_same _ _ _ _ f (hv f hfm)]; exact Bool.false_ne_true
  unfold Die.blockWrite
  simp only [hs, hm, e, hn, hf, hr, hx, h48, Bool.or_false, if_false, if_true, Bool.false_eq_true]

/-- The same for a word of the aggregator. -/
theorem Agg.blockWrite_command (g : Agg) (addr b : Nat) (r : RegSpec) (k : Nat)
    (hs : specOf true (addr / 0x1000) (addr % 0x1000) = some (r, k)) (hc : commandBits r b = true)
    (h1 : ¬ (addr / 0x1000 = 1 ∧ 0x100 ≤ addr % 0x1000 ∧ addr % 0x1000 < 0x140))
    (h2 : ¬ (addr / 0x1000 = 2 ∧ 0xC0 ≤ addr % 0x1000 ∧ addr % 0x1000 < 0x140 ∧ addr % 0x1000 % 0x20 = 4))
    (h3 : ¬ ((cmdPage (addr / 0x1000)).isSome = true ∧ addr % 0x1000 = 0x4C)) :
    g.blockWrite addr (g.part.kept true addr ||| BitVec.ofNat 32 b) =
      g.writeActs addr (g.part.num addr) (g.part.kept true addr ||| BitVec.ofNat 32 b) := by
  have hv := commandWord_field g.part true addr b r k hs hc
  have hw := commandWord_w1c g.part true addr b r k hs hc
  have e : (g.part.rd addr).toNat = g.part.num addr := rfl
  have hn := mergeWord_same r (g.part.num addr) (g.part.kept true addr ||| BitVec.ofNat 32 b).toNat hv hw
    fun f _ => bitsOf_scaled_le _ _ _
  have hf : ∀ lock, r.fields.any (fieldRefused lock (g.staticFixed addr) (g.part.num addr)
      (g.part.kept true addr ||| BitVec.ofNat 32 b).toNat) = false := by
    intro lock
    rw [List.any_eq_false]
    intro f hfm
    rw [fieldRefused_same _ _ _ _ f (hv f hfm)]; exact Bool.false_ne_true
  have hl : r.fields.any (g.loosens addr (g.part.num addr) (g.part.kept true addr ||| BitVec.ofNat 32 b)) = false := by
    rw [List.any_eq_false]
    intro f hfm
    unfold Agg.loosens
    rcases ha : f.acc with _ | _ | _ | _ | _ | _ <;> simp only [] <;> simp
    intro h
    exact absurd (hv f hfm (.inr ha)).symm h
  have hr : g.writeRefused addr (g.part.num addr) (g.part.num addr) = false := by simp [Agg.writeRefused]
  unfold Agg.blockWrite
  simp only [hs, e, hn, hf, hl, hr, h1, h2, h3, Bool.or_false, if_false, if_true, Bool.false_eq_true]

/-- A row that stores nothing a write carries. -/
def storesNothing (r : RegSpec) : Bool := r.fields.all fun f => !(f.acc == .rw || f.acc == .rwl || f.acc == .w1c)

theorem storesNothing_merge (r : RegSpec) (h : storesNothing r = true) (old w : Nat) : mergeWord r old w = old := by
  simp only [storesNothing, List.all_eq_true] at h
  refine mergeWord_same r old w (fun f hf ha => ?_) (fun f hf ha => ?_) fun f _ => bitsOf_scaled_le _ _ _
  · have := h f hf; rcases ha with ha | ha <;> simp [ha] at this
  · have := h f hf; simp [ha] at this

theorem storesNothing_refused (r : RegSpec) (h : storesNothing r = true) (lock fixed : Bool) (old w : Nat) :
    r.fields.any (fieldRefused lock fixed old w) = false := by
  simp only [storesNothing, List.all_eq_true] at h
  rw [List.any_eq_false]
  intro f hf
  rw [fieldRefused_same _ _ _ _ f fun ha => ?_]
  · exact Bool.false_ne_true
  · have := h f hf; rcases ha with ha | ha <;> simp [ha] at this

/-- A write of a die's register that stores nothing only commands. -/
theorem Die.blockWrite_wo (d : Die) (addr : Nat) (w : W32) (r : RegSpec) (k : Nat)
    (hs : specOf false (addr / 0x1000) (addr % 0x1000) = some (r, k)) (hc : storesNothing r = true)
    (hm : d.maskWrite addr w = some w)
    (hr : d.writeRefused addr (d.part.num addr) (d.part.num addr) w = false) (hx : Die.cmdConflict addr w = false)
    (h48 : ¬ (addr = 0x18048 ∨ addr = 0x18088)) : d.blockWrite addr w = d.writeActs addr (d.part.num addr) w := by
  have e : (d.part.rd addr).toNat = d.part.num addr := rfl
  unfold Die.blockWrite
  simp only [hs, hm, e, storesNothing_merge r hc, storesNothing_refused r hc, hr, hx, h48, Bool.or_false, if_false,
    if_true, Bool.false_eq_true]

/-- The same for a register of the aggregator. -/
theorem Agg.blockWrite_wo (g : Agg) (addr : Nat) (w : W32) (r : RegSpec) (k : Nat)
    (hs : specOf true (addr / 0x1000) (addr % 0x1000) = some (r, k)) (hc : storesNothing r = true)
    (h1 : ¬ (addr / 0x1000 = 1 ∧ 0x100 ≤ addr % 0x1000 ∧ addr % 0x1000 < 0x140))
    (h2 : ¬ (addr / 0x1000 = 2 ∧ 0xC0 ≤ addr % 0x1000 ∧ addr % 0x1000 < 0x140 ∧ addr % 0x1000 % 0x20 = 4))
    (h3 : ¬ ((cmdPage (addr / 0x1000)).isSome = true ∧ addr % 0x1000 = 0x4C)) :
    g.blockWrite addr w = g.writeActs addr (g.part.num addr) w := by
  have e : (g.part.rd addr).toNat = g.part.num addr := rfl
  have hl : r.fields.any (g.loosens addr (g.part.num addr) w) = false := by
    simp only [storesNothing, List.all_eq_true] at hc
    rw [List.any_eq_false]
    intro f hf
    have := hc f hf
    unfold Agg.loosens
    rcases ha : f.acc with _ | _ | _ | _ | _ | _ <;> simp [ha] at this ⊢
  have hr : g.writeRefused addr (g.part.num addr) (g.part.num addr) = false := by simp [Agg.writeRefused]
  unfold Agg.blockWrite
  simp only [hs, e, storesNothing_merge r hc, storesNothing_refused r hc, hl, hr, h1, h2, h3, Bool.or_false, if_false,
    if_true, Bool.false_eq_true]

end Sys2Proof.Machine
end

