-- ==== Sys2Proof/Laws/Store.lean ====
section
/-! SUPPORT. The laws of the one store discipline: a write reads back, leaves every other key alone, and keeps the canonical
form, for sparse maps and for byte memories. -/

namespace Sys2Proof.Machine

open Sys2Proof

variable {α : Type} [DecidableEq α]

/-! ### Sparse maps -/

theorem swfAbove_mono (d : Nat → α) (m : SMap α) (lo lo' : Option Nat) (h : swfAbove d lo m = true)
    (hl : ∀ a, (∀ l, lo = some l → l < a) → ∀ l, lo' = some l → l < a) : swfAbove d lo' m = true := by
  cases m with
  | nil => rfl
  | cons e m =>
    obtain ⟨a, v⟩ := e
    simp only [swfAbove, Bool.and_eq_true, decide_eq_true_eq] at h ⊢
    refine ⟨⟨?_, h.1.2⟩, h.2⟩
    cases lo' with
    | none => rfl
    | some l' =>
      have := hl a (fun l hlo => by subst hlo; simpa using h.1.1) l' rfl
      simpa using this

/-- Below its first key a map in canonical form reads as its default. -/
theorem sget_below (d : Nat → α) (m : SMap α) (lo k : Nat) (h : swfAbove d (some lo) m = true) (hk : k ≤ lo) :
    sget (d k) m k = d k := by
  cases m with
  | nil => rfl
  | cons e m =>
    obtain ⟨a, v⟩ := e
    simp only [swfAbove, Bool.and_eq_true, decide_eq_true_eq] at h
    have : ¬ k = a := by omega
    have h2 : k < a := by omega
    simp [sget, this, h2]

/-- A key set reads back. -/
theorem sget_sput_same (d : Nat → α) (m : SMap α) (k : Nat) (v : α) : ∀ lo, swfAbove d lo m = true →
    sget (d k) (sput (d k) m k v) k = v := by
  induction m with
  | nil => intro lo _; by_cases hv : v = d k <;> simp [sput, sget, hv]
  | cons e m ih =>
    obtain ⟨a, x⟩ := e
    intro lo h
    simp only [swfAbove, Bool.and_eq_true, decide_eq_true_eq] at h
    by_cases h1 : k < a
    · have h2 : ¬ k = a := by omega
      by_cases hv : v = d k <;> simp [sput, sget, h1, h2, hv]
    · by_cases h2 : k = a
      · subst h2
        by_cases hv : v = d k
        · simp [sput, hv, sget_below d m k k h.2 (Nat.le_refl _)]
        · simp [sput, sget, hv]
      · simp [sput, sget, h1, h2, ih _ h.2]

/-- Every other key keeps its value. -/
theorem sget_sput_other (d : Nat → α) (m : SMap α) (k j : Nat) (v : α) (hj : j ≠ k) : ∀ lo, swfAbove d lo m = true →
    sget (d j) (sput (d k) m k v) j = sget (d j) m j := by
  induction m with
  | nil => intro lo _; by_cases hv : v = d k <;> by_cases hl : j < k <;> simp [sput, sget, hv, hj, hl]
  | cons e m ih =>
    obtain ⟨a, x⟩ := e
    intro lo h
    simp only [swfAbove, Bool.and_eq_true, decide_eq_true_eq] at h
    by_cases h1 : k < a
    · by_cases hv : v = d k
      · simp [sput, h1, hv]
      · by_cases hl : j < k
        · have h3 : ¬ j = a := by omega
          have h4 : j < a := by omega
          simp [sput, sget, h1, hv, hj, hl, h3, h4]
        · simp [sput, sget, h1, hv, hj, hl]
    · by_cases h2 : k = a
      · subst h2
        by_cases hv : v = d k
        · by_cases hl : j < k
          · simp [sput, sget, hv, hj, hl, sget_below d m k j h.2 (by omega)]
          · simp [sput, sget, hv, hj, hl]
        · simp [sput, sget, hv, hj]
      · by_cases h3 : j = a <;> by_cases h4 : j < a <;> simp [sput, sget, h1, h2, h3, h4, ih _ h.2]

/-- A key set keeps the canonical form. -/
theorem swfAbove_sput (d : Nat → α) (m : SMap α) (k : Nat) (v : α) : ∀ lo, swfAbove d lo m = true →
    (∀ l, lo = some l → l < k) → swfAbove d lo (sput (d k) m k v) = true := by
  induction m with
  | nil =>
    intro lo _ hk
    by_cases hv : v = d k
    · simp [sput, hv, swfAbove]
    · cases lo with
      | none => simp [sput, hv, swfAbove]
      | some l => simp [sput, hv, swfAbove, hk l rfl]
  | cons e m ih =>
    obtain ⟨a, x⟩ := e
    intro lo h hk
    have h' := h
    simp only [swfAbove, Bool.and_eq_true, decide_eq_true_eq] at h
    by_cases h1 : k < a
    · by_cases hv : v = d k
      · simpa [sput, h1, hv] using h'
      · cases lo with
        | none => simp [sput, h1, hv, swfAbove, h.1.2, h.2]
        | some l => simp [sput, h1, hv, swfAbove, h.1.2, h.2, hk l rfl]
    · by_cases h2 : k = a
      · subst h2
        by_cases hv : v = d k
        · simp only [sput, hv, if_true, Nat.lt_irrefl, if_false]
          refine swfAbove_mono d m (some k) lo h.2 fun b hb l hl => ?_
          have := hb k rfl; have := hk l hl; omega
        · cases lo with
          | none => simp [sput, hv, swfAbove, h.2]
          | some l => simp [sput, hv, swfAbove, h.2, hk l rfl]
      · have := ih (some a) h.2 fun l hl => by cases hl; omega
        cases lo with
        | none => simp [sput, h1, h2, swfAbove, h.1.2, this]
        | some l => simp [sput, h1, h2, swfAbove, h.1.2, this]; simpa using h.1.1

theorem swf_sput (d : Nat → α) (m : SMap α) (k : Nat) (v : α) (h : swf d m = true) : swf d (sput (d k) m k v) = true :=
  swfAbove_sput d m k v none h fun _ hl => by cases hl

/-! ### Byte memories -/

theorem Mem.wf_empty : Mem.wf [] = true := rfl

/-- A byte written keeps the canonical form. -/
theorem Mem.wf_wr8 (m : Mem) (a : Nat) (b : Byte) (h : Mem.wf m = true) : Mem.wf (Mem.wr8 m a b) = true :=
  swf_sput (fun _ => (0 : Byte)) m a b h

/-- Bytes written keep the canonical form. -/
theorem Mem.wf_wrBytes (bs : List Byte) : ∀ (m : Mem) (a : Nat), Mem.wf m = true → Mem.wf (Mem.wrBytes m a bs) = true := by
  induction bs with
  | nil => intro m a h; exact h
  | cons b bs ih => intro m a h; exact ih _ _ (Mem.wf_wr8 m a b h)

/-- A number written keeps the canonical form. -/
theorem Mem.wf_wrLE (m : Mem) (a n x : Nat) (h : Mem.wf m = true) : Mem.wf (Mem.wrLE m a n x) = true :=
  Mem.wf_wrBytes _ m a h

/-- A word written keeps the canonical form. -/
theorem Mem.wf_wr32 (m : Mem) (a : Nat) (w : W32) (h : Mem.wf m = true) : Mem.wf (Mem.wr32 m a w) = true :=
  Mem.wf_wrLE m a 4 w.toNat h

theorem Mem.rd8_wr8_same (m : Mem) (a : Nat) (b : Byte) (h : Mem.wf m = true) : Mem.rd8 (Mem.wr8 m a b) a = b :=
  sget_sput_same (fun _ => (0 : Byte)) m a b none h

theorem Mem.rd8_wr8_other (m : Mem) (a k : Nat) (b : Byte) (h : Mem.wf m = true) (hk : k ≠ a) :
    Mem.rd8 (Mem.wr8 m a b) k = Mem.rd8 m k :=
  sget_sput_other (fun _ => (0 : Byte)) m a k b hk none h

end Sys2Proof.Machine
end

