-- ==== Sys2Proof/Laws/Regs.lean ====
section
/-! SUPPORT. What each update of a part's registers and headers does to each of its fields. -/

namespace Sys2Proof.Machine

open Sys2Proof

variable (p : Part) (a b lo w v n page page' : Nat) (x : W32) (h : PageHdr) (f : PageHdr → PageHdr)

/-! ### A register word set -/

theorem Part.rd_wr_same (hw : swf (resetWord p.isAgg) p.regs = true) : (p.wr a x).rd a = x :=
  sget_sput_same (resetWord p.isAgg) p.regs a x none hw
theorem Part.rd_wr_other (hw : swf (resetWord p.isAgg) p.regs = true) (hb : b ≠ a) : (p.wr a x).rd b = p.rd b :=
  sget_sput_other (resetWord p.isAgg) p.regs a b x hb none hw
theorem Part.swf_wr (hw : swf (resetWord p.isAgg) p.regs = true) :
    swf (resetWord (p.wr a x).isAgg) (p.wr a x).regs = true := swf_sput (resetWord p.isAgg) p.regs a x hw
@[simp] theorem Part.wr_isAgg : (p.wr a x).isAgg = p.isAgg := rfl
@[simp] theorem Part.wr_hdrs : (p.wr a x).hdrs = p.hdrs := rfl
@[simp] theorem Part.wr_hdr : (p.wr a x).hdr page = p.hdr page := rfl
@[simp] theorem Part.wr_pstate : (p.wr a x).pstate page = p.pstate page := rfl
@[simp] theorem Part.wr_time : (p.wr a x).time = p.time := rfl
@[simp] theorem Part.wr_disc : (p.wr a x).disc = p.disc := rfl
@[simp] theorem Part.wr_stages : (p.wr a x).stages = p.stages := rfl
@[simp] theorem Part.wr_emitted : (p.wr a x).emitted = p.emitted := rfl
@[simp] theorem Part.wr_out : (p.wr a x).out = p.out := rfl
@[simp] theorem Part.wr_fresh : (p.wr a x).fresh = p.fresh := rfl
@[simp] theorem Part.setFld_hdr : (p.setFld a lo w v).hdr page = p.hdr page := rfl
@[simp] theorem Part.setFld_time : (p.setFld a lo w v).time = p.time := rfl
@[simp] theorem Part.setFld_disc : (p.setFld a lo w v).disc = p.disc := rfl
@[simp] theorem Part.setNum_hdr : (p.setNum a n).hdr page = p.hdr page := rfl
@[simp] theorem Part.setNum_time : (p.setNum a n).time = p.time := rfl
@[simp] theorem Part.setNum_disc : (p.setNum a n).disc = p.disc := rfl
@[simp] theorem Part.inc_hdr : (p.inc a).hdr page = p.hdr page := rfl
@[simp] theorem Part.inc_time : (p.inc a).time = p.time := rfl
@[simp] theorem Part.inc_disc : (p.inc a).disc = p.disc := rfl

/-! ### Time carried forward -/

@[simp] theorem Part.reach_isAgg : (p.reach n).isAgg = p.isAgg := by unfold Part.reach; split <;> rfl
@[simp] theorem Part.reach_regs : (p.reach n).regs = p.regs := by unfold Part.reach; split <;> rfl
@[simp] theorem Part.reach_hdrs : (p.reach n).hdrs = p.hdrs := by unfold Part.reach; split <;> rfl
@[simp] theorem Part.reach_rd : (p.reach n).rd a = p.rd a := by simp [Part.rd]
@[simp] theorem Part.reach_num : (p.reach n).num a = p.num a := by simp [Part.num]
@[simp] theorem Part.reach_fld : (p.reach n).fld a lo w = p.fld a lo w := by simp [Part.fld]
@[simp] theorem Part.reach_bit : (p.reach n).bit a lo = p.bit a lo := by simp [Part.bit]
@[simp] theorem Part.reach_hdr : (p.reach n).hdr page = p.hdr page := by simp [Part.hdr]
@[simp] theorem Part.reach_pstate : (p.reach n).pstate page = p.pstate page := by simp [Part.pstate]
@[simp] theorem Part.reach_disc : (p.reach n).disc = p.disc := by unfold Part.reach; split <;> rfl
@[simp] theorem Part.reach_stages : (p.reach n).stages = p.stages := by unfold Part.reach; split <;> rfl
@[simp] theorem Part.reach_out : (p.reach n).out = p.out := by unfold Part.reach; split <;> rfl
@[simp] theorem Part.reach_emitted : (p.reach n).emitted = p.emitted := by unfold Part.reach; split <;> rfl

/-! ### A page header set -/

theorem Part.hdr_setHdr_same (hw : swf (resetHdr p.isAgg) p.hdrs = true) : (p.setHdr page h).hdr page = h :=
  sget_sput_same (resetHdr p.isAgg) p.hdrs page h none hw
theorem Part.hdr_setHdr_other (hw : swf (resetHdr p.isAgg) p.hdrs = true) (hp : page' ≠ page) :
    (p.setHdr page h).hdr page' = p.hdr page' := sget_sput_other (resetHdr p.isAgg) p.hdrs page page' h hp none hw
theorem Part.swf_setHdr (hw : swf (resetHdr p.isAgg) p.hdrs = true) :
    swf (resetHdr (p.setHdr page h).isAgg) (p.setHdr page h).hdrs = true := swf_sput (resetHdr p.isAgg) p.hdrs page h hw
@[simp] theorem Part.modHdr_isAgg : (p.modHdr page f).isAgg = p.isAgg := rfl
@[simp] theorem Part.modHdr_regs : (p.modHdr page f).regs = p.regs := rfl
@[simp] theorem Part.modHdr_rd : (p.modHdr page f).rd a = p.rd a := rfl
@[simp] theorem Part.modHdr_num : (p.modHdr page f).num a = p.num a := rfl
@[simp] theorem Part.modHdr_fld : (p.modHdr page f).fld a lo w = p.fld a lo w := rfl
@[simp] theorem Part.modHdr_bit : (p.modHdr page f).bit a lo = p.bit a lo := rfl
@[simp] theorem Part.modHdr_time : (p.modHdr page f).time = p.time := rfl
@[simp] theorem Part.modHdr_disc : (p.modHdr page f).disc = p.disc := rfl
@[simp] theorem Part.modHdr_stages : (p.modHdr page f).stages = p.stages := rfl
@[simp] theorem Part.modHdr_emitted : (p.modHdr page f).emitted = p.emitted := rfl
@[simp] theorem Part.modHdr_out : (p.modHdr page f).out = p.out := rfl

end Sys2Proof.Machine
end

