-- ==== Sys2Proof/Laws/Strobe.lean ====
section
/-! SUPPORT. What each command that writes only the command bits of a register comes to on its part: the action of its bits,
and nothing that another bit of the register would do. -/

namespace Sys2Proof.Machine

open Sys2Proof

/-- A command bit of the word a strobe writes is what the strobe asks, where no kept field covers it. -/
theorem commandWord_wbit (p : Part) (isAgg : Bool) (addr b i : Nat) (r : RegSpec) (k : Nat)
    (hs : specOf isAgg (addr / 0x1000) (addr % 0x1000) = some (r, k)) (hb : b < 2 ^ 32) (hi : i < 32)
    (hn : (r.fields.filter fun f => f.acc == .rw || f.acc == .rwl).any (fun f => decide (f.lo ≤ i ∧ i < f.lo + f.w)) = false) :
    wbit (p.kept isAgg addr ||| BitVec.ofNat 32 b) i = b.testBit i := by
  rw [wbit, commandWord_testBit p isAgg addr b i r k hs hb hi, hn, Bool.false_and, Bool.false_or]

/-- A kept bit of the word a strobe writes. -/
theorem commandWord_kept (p : Part) (isAgg : Bool) (addr b i : Nat) (r : RegSpec) (k : Nat)
    (hs : specOf isAgg (addr / 0x1000) (addr % 0x1000) = some (r, k)) (hb : b < 2 ^ 32) (hi : i < 32)
    (hn : (r.fields.filter fun f => f.acc == .rw || f.acc == .rwl).any (fun f => decide (f.lo ≤ i ∧ i < f.lo + f.w)) = true)
    (hz : b.testBit i = false) :
    wbit (p.kept isAgg addr ||| BitVec.ofNat 32 b) i = (p.num addr).testBit i := by
  rw [wbit, commandWord_testBit p isAgg addr b i r k hs hb hi, hn, Bool.true_and, hz, Bool.or_false]

/-- A word that `Die.regWrite` hands to `Die.blockWrite`. -/
def dieBlockAddr (addr : Nat) : Bool :=
  decide (addr % 4 = 0 ∧ 0x40 ≤ addr % 0x1000) && (dieClass (addr / 0x1000)).isSome &&
    (match indPort (addr / 0x1000) with
      | some port => decide (addr ≠ port ∧ addr ≠ port + 4 ∧ addr ≠ port + 8)
      | none => true)

theorem Die.regWrite_block (d : Die) (addr : Nat) (w : W32) (e : Ecc) (hs : (specOf false (addr / 0x1000) (addr % 0x1000)).isSome = true)
    (ha : dieBlockAddr addr = true) :
    d.regWrite addr w e = d.admitted addr w fun d => d.blockWrite addr w := by
  simp only [dieBlockAddr, Bool.and_eq_true, decide_eq_true_eq] at ha
  obtain ⟨⟨⟨h4, h40⟩, hc⟩, hp⟩ := ha
  have h1 : addr % 0x1000 / 4 * 4 = addr % 0x1000 := by omega
  have h2 : addr / 0x1000 * 0x1000 + addr % 0x1000 = addr := by omega
  have h3 : ¬ addr % 0x1000 = 4 := by omega
  have h5 : ¬ addr % 0x1000 < 0x40 := by omega
  unfold Die.regWrite Die.admitted
  have ha : assigned false (addr / 0x1000) (addr % 0x1000) = true := by simp [assigned, pageClass, hc, hs]
  have hc' : (dieClass (addr / 0x1000)).isNone = false := by
    cases h : dieClass (addr / 0x1000) <;> simp [h] at hc ⊢
  simp only [h1, h2, h3, h5, ha, hc', if_false, Bool.not_true, Bool.false_or, Bool.false_eq_true]
  cases h : indPort (addr / 0x1000) with
  | none => rfl
  | some port =>
    simp only [h, decide_eq_true_eq] at hp
    simp only [hp.1, hp.2.1, hp.2.2, if_false]

/-- A word that `Agg.barWrite` hands to `Agg.blockWrite`. -/
def aggBlockAddr (addr : Nat) : Bool :=
  decide (addr % 4 = 0 ∧ 0x40 ≤ addr % 0x1000) && (aggClass (addr / 0x1000)).isSome &&
    (match aggPort (addr / 0x1000) with
      | some port => decide (addr ≠ port ∧ addr ≠ port + 4 ∧ addr ≠ port + 8)
      | none => true)

theorem Agg.barWrite_block (g : Agg) (addr : Nat) (w : W32) (e : Ecc) (hs : (specOf true (addr / 0x1000) (addr % 0x1000)).isSome = true)
    (ha : aggBlockAddr addr = true) :
    g.barWrite addr w e = g.admitted addr w fun g => g.blockWrite addr w := by
  simp only [aggBlockAddr, Bool.and_eq_true, decide_eq_true_eq] at ha
  obtain ⟨⟨⟨h4, h40⟩, hc⟩, hp⟩ := ha
  have h1 : addr % 0x1000 / 4 * 4 = addr % 0x1000 := by omega
  have h2 : addr / 0x1000 * 0x1000 + addr % 0x1000 = addr := by omega
  have h3 : ¬ addr % 0x1000 = 4 := by omega
  have h5 : ¬ addr % 0x1000 < 0x40 := by omega
  unfold Agg.barWrite Agg.admitted
  have ha : assigned true (addr / 0x1000) (addr % 0x1000) = true := by simp [assigned, pageClass, hc, hs]
  have hc' : (aggClass (addr / 0x1000)).isNone = false := by
    cases h : aggClass (addr / 0x1000) <;> simp [h] at hc ⊢
  simp only [h1, h2, h3, h5, ha, hc', if_false, Bool.not_true, Bool.false_or, Bool.false_eq_true]
  cases h : aggPort (addr / 0x1000) with
  | none => rfl
  | some port =>
    simp only [h, decide_eq_true_eq] at hp
    simp only [hp.1, hp.2.1, hp.2.2, if_false]

/-- A strobe of a die whose page adds no refusal and no mask of its own: the actions of its bits. -/
theorem Die.strobe_command (d : Die) (hd : d.ready = true) (addr b : Nat) (r : RegSpec) (k : Nat)
    (hs : specOf false (addr / 0x1000) (addr % 0x1000) = some (r, k)) (ha : dieBlockAddr addr = true)
    (hc : commandBits r b = true)
    (hm : d.maskWrite addr (d.part.kept false addr ||| BitVec.ofNat 32 b) = some (d.part.kept false addr ||| BitVec.ofNat 32 b))
    (hr : d.writeRefused addr (d.part.num addr) (d.part.num addr) (d.part.kept false addr ||| BitVec.ofNat 32 b) = false)
    (hx : Die.cmdConflict addr (d.part.kept false addr ||| BitVec.ofNat 32 b) = false) (h48 : ¬ (addr = 0x18048 ∨ addr = 0x18088)) :
    d.strobe addr b = d.commanded addr b fun d =>
      d.writeActs addr (d.part.num addr) (d.part.kept false addr ||| BitVec.ofNat 32 b) := by
  rw [d.strobe_ready hd, d.regWrite_block addr _ _ (by rw [hs]; rfl) ha]
  exact d.admitted_congr _ _ (d.blockWrite_command addr b r k hs hc hm hr hx h48)

theorem Agg.strobe_command (g : Agg) (addr b : Nat) (r : RegSpec) (k : Nat)
    (hs : specOf true (addr / 0x1000) (addr % 0x1000) = some (r, k)) (ha : aggBlockAddr addr = true)
    (hc : commandBits r b = true)
    (h1 : ¬ (addr / 0x1000 = 1 ∧ 0x100 ≤ addr % 0x1000 ∧ addr % 0x1000 < 0x140))
    (h2 : ¬ (addr / 0x1000 = 2 ∧ 0xC0 ≤ addr % 0x1000 ∧ addr % 0x1000 < 0x140 ∧ addr % 0x1000 % 0x20 = 4))
    (h3 : ¬ ((cmdPage (addr / 0x1000)).isSome = true ∧ addr % 0x1000 = 0x4C)) :
    g.strobe addr b = g.commanded addr b fun g =>
      g.writeActs addr (g.part.num addr) (g.part.kept true addr ||| BitVec.ofNat 32 b) := by
  rw [Agg.strobe, g.barWrite_block addr _ _ (by rw [hs]; rfl) ha]
  exact g.admitted_congr _ _ (g.blockWrite_command addr b r k hs hc h1 h2 h3)

/-! ### Commands of a die -/

variable (d : Die) (hd : d.ready = true)

/-- A bit of a register word that a write has not changed. -/
theorem Part.testBit_bit (p : Part) (addr i : Nat) : ((p.num addr).testBit i != p.bit addr i) = false := by
  simp [Part.bit, Part.fld, Part.num, bitsOf, Nat.testBit, Nat.shiftRight_eq_div_pow]

theorem Part.testBit_rise (p : Part) (addr i : Nat) : (!(p.num addr).testBit i && p.bit addr i) = false := by
  have := p.testBit_bit addr i
  cases h : (p.num addr).testBit i <;> simp_all

include hd in
theorem Die.strobe_armRestep :
    d.strobe 0x104C 2 = d.commanded 0x104C 2 fun d =>
      d.restepArm true := by
  have hs : specOf false (0x104C / 0x1000) (0x104C % 0x1000) = some (_, _) := rfl
  have h1 : wbit (d.part.kept false 0x104C ||| BitVec.ofNat 32 2) 1 = true :=
    commandWord_wbit d.part false 0x104C 2 1 _ _ hs (by decide) (by decide) (by decide)
  have h2 : wbit (d.part.kept false 0x104C ||| BitVec.ofNat 32 2) 2 = false :=
    commandWord_wbit d.part false 0x104C 2 2 _ _ hs (by decide) (by decide) (by decide)
  rw [d.strobe_command hd 0x104C 2 _ _ hs (by decide) (by decide) rfl rfl (by simp [Die.cmdConflict, h1, h2]) (by decide)]
  refine d.admitted_congr _ _ ?_
  simp only [Die.writeActs, Part.testBit_bit]
  simp [dieClass, h1, h2]

include hd in
theorem Die.strobe_disarm :
    d.strobe 0x104C 4 = d.commanded 0x104C 4 fun d =>
      d.restepArm false := by
  have hs : specOf false (0x104C / 0x1000) (0x104C % 0x1000) = some (_, _) := rfl
  have h1 : wbit (d.part.kept false 0x104C ||| BitVec.ofNat 32 4) 1 = false :=
    commandWord_wbit d.part false 0x104C 4 1 _ _ hs (by decide) (by decide) (by decide)
  have h2 : wbit (d.part.kept false 0x104C ||| BitVec.ofNat 32 4) 2 = true :=
    commandWord_wbit d.part false 0x104C 4 2 _ _ hs (by decide) (by decide) (by decide)
  rw [d.strobe_command hd 0x104C 4 _ _ hs (by decide) (by decide) rfl rfl (by simp [Die.cmdConflict, h1, h2]) (by decide)]
  refine d.admitted_congr _ _ ?_
  simp only [Die.writeActs, Part.testBit_bit]
  simp [dieClass, h1, h2]

include hd in
theorem Die.strobe_switchArm :
    d.strobe 0x10B8 1 = d.commanded 0x10B8 1 fun d =>
      d.switchArm (d.part.kept false 0x10B8 ||| BitVec.ofNat 32 1) := by
  have hs : specOf false (0x10B8 / 0x1000) (0x10B8 % 0x1000) = some (_, _) := rfl
  have h0 : wbit (d.part.kept false 0x10B8 ||| BitVec.ofNat 32 1) 0 = true :=
    commandWord_wbit d.part false 0x10B8 1 0 _ _ hs (by decide) (by decide) (by decide)
  rw [d.strobe_command hd 0x10B8 1 _ _ hs (by decide) (by decide) rfl rfl rfl (by decide)]
  refine d.admitted_congr _ _ ?_
  simp only [Die.writeActs, Part.testBit_bit]
  simp [dieClass, h0]

include hd in
theorem Die.strobe_baseClear :
    d.strobe 0x2040 4 = d.commanded 0x2040 4 fun d =>
      d.baseClear := by
  have hs : specOf false (0x2040 / 0x1000) (0x2040 % 0x1000) = some (_, _) := rfl
  have h2 : wbit (d.part.kept false 0x2040 ||| BitVec.ofNat 32 4) 2 = true :=
    commandWord_wbit d.part false 0x2040 4 2 _ _ hs (by decide) (by decide) (by decide)
  rw [d.strobe_command hd 0x2040 4 _ _ hs (by decide) (by decide) rfl rfl rfl (by decide)]
  refine d.admitted_congr _ _ ?_
  simp only [Die.writeActs, Part.testBit_bit]
  simp [dieClass, h2]

include hd in
theorem Die.strobe_readAll :
    d.strobe 0x41040 1 = d.commanded 0x41040 1 fun d =>
      d.identCtl (d.part.kept false 0x41040 ||| BitVec.ofNat 32 1) := by
  have hs : specOf false (0x41040 / 0x1000) (0x41040 % 0x1000) = some (_, _) := rfl
  rw [d.strobe_command hd 0x41040 1 _ _ hs (by decide) (by decide) rfl rfl rfl (by decide)]
  refine d.admitted_congr _ _ ?_
  simp [Die.writeActs, dieClass]

include hd in
theorem Die.strobe_rifValidate :
    d.strobe 0x9040 2 = d.commanded 0x9040 2 fun d =>
      d.rifValidate := by
  have hs : specOf false (0x9040 / 0x1000) (0x9040 % 0x1000) = some (_, _) := rfl
  have h0 : wbit (d.part.kept false 0x9040 ||| BitVec.ofNat 32 2) 0 = false :=
    commandWord_wbit d.part false 0x9040 2 0 _ _ hs (by decide) (by decide) (by decide)
  have h1 : wbit (d.part.kept false 0x9040 ||| BitVec.ofNat 32 2) 1 = true :=
    commandWord_wbit d.part false 0x9040 2 1 _ _ hs (by decide) (by decide) (by decide)
  rw [d.strobe_command hd 0x9040 2 _ _ hs (by decide) (by decide) rfl rfl rfl (by decide)]
  refine d.admitted_congr _ _ ?_
  simp only [Die.writeActs, Part.testBit_bit]
  simp [dieClass, h0, h1]

include hd in
theorem Die.strobe_rifArm :
    d.strobe 0x9040 1 = d.commanded 0x9040 1 fun d =>
      d.rifArm := by
  have hs : specOf false (0x9040 / 0x1000) (0x9040 % 0x1000) = some (_, _) := rfl
  have h0 : wbit (d.part.kept false 0x9040 ||| BitVec.ofNat 32 1) 0 = true :=
    commandWord_wbit d.part false 0x9040 1 0 _ _ hs (by decide) (by decide) (by decide)
  have h1 : wbit (d.part.kept false 0x9040 ||| BitVec.ofNat 32 1) 1 = false :=
    commandWord_wbit d.part false 0x9040 1 1 _ _ hs (by decide) (by decide) (by decide)
  rw [d.strobe_command hd 0x9040 1 _ _ hs (by decide) (by decide) rfl rfl rfl (by decide)]
  refine d.admitted_congr _ _ ?_
  simp only [Die.writeActs, Part.testBit_bit]
  simp [dieClass, h0, h1]

include hd in
theorem Die.strobe_disputeSet :
    d.strobe 0x8040 8 = d.commanded 0x8040 8 fun d =>
      d.dispute (d.part.fld 0x8070 0 16) (d.part.fld 0x8070 16 10) 2 := by
  have hs : specOf false (0x8040 / 0x1000) (0x8040 % 0x1000) = some (_, _) := rfl
  have h3 : wbit (d.part.kept false 0x8040 ||| BitVec.ofNat 32 8) 3 = true :=
    commandWord_wbit d.part false 0x8040 8 3 _ _ hs (by decide) (by decide) (by decide)
  have h4 : wbit (d.part.kept false 0x8040 ||| BitVec.ofNat 32 8) 4 = false :=
    commandWord_wbit d.part false 0x8040 8 4 _ _ hs (by decide) (by decide) (by decide)
  rw [d.strobe_command hd 0x8040 8 _ _ hs (by decide) (by decide) rfl rfl (by simp [Die.cmdConflict, h3, h4]) (by decide)]
  refine d.admitted_congr _ _ ?_
  simp only [Die.writeActs, Part.testBit_bit]
  simp [dieClass, h3]

include hd in
theorem Die.strobe_copyReset :
    d.strobe 0x3040 2 = d.commanded 0x3040 2 fun d =>
      d.copyReset := by
  have hs : specOf false (0x3040 / 0x1000) (0x3040 % 0x1000) = some (_, _) := rfl
  have h0 : wbit (d.part.kept false 0x3040 ||| BitVec.ofNat 32 2) 0 = false :=
    commandWord_wbit d.part false 0x3040 2 0 _ _ hs (by decide) (by decide) (by decide)
  have h1 : wbit (d.part.kept false 0x3040 ||| BitVec.ofNat 32 2) 1 = true :=
    commandWord_wbit d.part false 0x3040 2 1 _ _ hs (by decide) (by decide) (by decide)
  rw [d.strobe_command hd 0x3040 2 _ _ hs (by decide) (by decide) rfl rfl rfl (by decide)]
  refine d.admitted_congr _ _ ?_
  simp only [Die.writeActs, Part.testBit_bit]
  simp [dieClass, h0, h1]

include hd in
theorem Die.strobe_launch :
    d.strobe 0x3040 1 = d.commanded 0x3040 1 fun d =>
      d.launch (d.part.kept false 0x3040 ||| BitVec.ofNat 32 1) := by
  have hs : specOf false (0x3040 / 0x1000) (0x3040 % 0x1000) = some (_, _) := rfl
  have h0 : wbit (d.part.kept false 0x3040 ||| BitVec.ofNat 32 1) 0 = true :=
    commandWord_wbit d.part false 0x3040 1 0 _ _ hs (by decide) (by decide) (by decide)
  have h1 : wbit (d.part.kept false 0x3040 ||| BitVec.ofNat 32 1) 1 = false :=
    commandWord_wbit d.part false 0x3040 1 1 _ _ hs (by decide) (by decide) (by decide)
  rw [d.strobe_command hd 0x3040 1 _ _ hs (by decide) (by decide) rfl rfl rfl (by decide)]
  refine d.admitted_congr _ _ ?_
  simp only [Die.writeActs, Part.testBit_bit]
  simp [dieClass, h0, h1]

include hd in
theorem Die.strobe_gclArm :
    d.strobe 0x3012C 1 = d.commanded 0x3012C 1 fun d =>
      d.onLane fun p s => gclArm p s none := by
  have hs : specOf false (0x3012C / 0x1000) (0x3012C % 0x1000) = some (_, _) := rfl
  have h0 : wbit (d.part.kept false 0x3012C ||| BitVec.ofNat 32 1) 0 = true :=
    commandWord_wbit d.part false 0x3012C 1 0 _ _ hs (by decide) (by decide) (by decide)
  rw [d.strobe_command hd 0x3012C 1 _ _ hs (by decide) (by decide) rfl rfl rfl (by decide)]
  refine d.admitted_congr _ _ ?_
  simp only [Die.writeActs, Part.testBit_bit]
  simp [dieClass, h0]

include hd in
theorem Die.strobe_retrain :
    d.strobe 0x31040 1 = d.commanded 0x31040 1 fun d =>
      d.laneAct fun p s => linkRestart p s none 5 := by
  have hs : specOf false (0x31040 / 0x1000) (0x31040 % 0x1000) = some (_, _) := rfl
  have h0 : wbit (d.part.kept false 0x31040 ||| BitVec.ofNat 32 1) 0 = true :=
    commandWord_wbit d.part false 0x31040 1 0 _ _ hs (by decide) (by decide) (by decide)
  rw [d.strobe_command hd 0x31040 1 _ _ hs (by decide) (by decide) rfl rfl rfl (by decide)]
  refine d.admitted_congr _ _ ?_
  simp only [Die.writeActs, Part.testBit_bit]
  simp [dieClass, h0]

/-! ### Commands of the aggregator -/

variable (g : Agg)

theorem Agg.strobe_freezeNow :
    g.strobe 0x1040 8 = g.commanded 0x1040 8 fun g =>
      g.freezeCause 0xFF 0 := by
  have hs : specOf true (0x1040 / 0x1000) (0x1040 % 0x1000) = some (_, _) := rfl
  have h3 : wbit (g.part.kept true 0x1040 ||| BitVec.ofNat 32 8) 3 = true :=
    commandWord_wbit g.part true 0x1040 8 3 _ _ hs (by decide) (by decide) (by decide)
  have h4 : wbit (g.part.kept true 0x1040 ||| BitVec.ofNat 32 8) 4 = false :=
    commandWord_wbit g.part true 0x1040 8 4 _ _ hs (by decide) (by decide) (by decide)
  rw [g.strobe_command 0x1040 8 _ _ hs (by decide) (by decide) (by decide) (by decide) (by decide)]
  refine g.admitted_congr _ _ ?_
  simp only [Agg.writeActs]
  simp [aggClass, h3, h4]

theorem Agg.strobe_unfreeze :
    g.strobe 0x1040 16 = g.commanded 0x1040 16 fun g =>
      g.freezeEnd := by
  have hs : specOf true (0x1040 / 0x1000) (0x1040 % 0x1000) = some (_, _) := rfl
  have h3 : wbit (g.part.kept true 0x1040 ||| BitVec.ofNat 32 16) 3 = false :=
    commandWord_wbit g.part true 0x1040 16 3 _ _ hs (by decide) (by decide) (by decide)
  have h4 : wbit (g.part.kept true 0x1040 ||| BitVec.ofNat 32 16) 4 = true :=
    commandWord_wbit g.part true 0x1040 16 4 _ _ hs (by decide) (by decide) (by decide)
  rw [g.strobe_command 0x1040 16 _ _ hs (by decide) (by decide) (by decide) (by decide) (by decide)]
  refine g.admitted_congr _ _ ?_
  simp only [Agg.writeActs]
  simp [aggClass, h3, h4]

theorem Agg.strobe_attachDone :
    g.strobe 0x2040 2 = g.commanded 0x2040 2 fun g =>
      g.attachDone (g.part.kept true 0x2040 ||| BitVec.ofNat 32 2) := by
  have hs : specOf true (0x2040 / 0x1000) (0x2040 % 0x1000) = some (_, _) := rfl
  have h1 : wbit (g.part.kept true 0x2040 ||| BitVec.ofNat 32 2) 1 = true :=
    commandWord_wbit g.part true 0x2040 2 1 _ _ hs (by decide) (by decide) (by decide)
  have h2 : wbit (g.part.kept true 0x2040 ||| BitVec.ofNat 32 2) 2 = false :=
    commandWord_wbit g.part true 0x2040 2 2 _ _ hs (by decide) (by decide) (by decide)
  have h3 : wbit (g.part.kept true 0x2040 ||| BitVec.ofNat 32 2) 3 = false :=
    commandWord_wbit g.part true 0x2040 2 3 _ _ hs (by decide) (by decide) (by decide)
  rw [g.strobe_command 0x2040 2 _ _ hs (by decide) (by decide) (by decide) (by decide) (by decide)]
  refine g.admitted_congr _ _ ?_
  simp only [Agg.writeActs]
  simp [aggClass, h1, h2, h3]

theorem Agg.strobe_detach :
    g.strobe 0x2040 4 = g.commanded 0x2040 4 fun g =>
      g.detach := by
  have hs : specOf true (0x2040 / 0x1000) (0x2040 % 0x1000) = some (_, _) := rfl
  have h1 : wbit (g.part.kept true 0x2040 ||| BitVec.ofNat 32 4) 1 = false :=
    commandWord_wbit g.part true 0x2040 4 1 _ _ hs (by decide) (by decide) (by decide)
  have h2 : wbit (g.part.kept true 0x2040 ||| BitVec.ofNat 32 4) 2 = true :=
    commandWord_wbit g.part true 0x2040 4 2 _ _ hs (by decide) (by decide) (by decide)
  have h3 : wbit (g.part.kept true 0x2040 ||| BitVec.ofNat 32 4) 3 = false :=
    commandWord_wbit g.part true 0x2040 4 3 _ _ hs (by decide) (by decide) (by decide)
  rw [g.strobe_command 0x2040 4 _ _ hs (by decide) (by decide) (by decide) (by decide) (by decide)]
  refine g.admitted_congr _ _ ?_
  simp only [Agg.writeActs]
  simp [aggClass, h1, h2, h3]

theorem Agg.strobe_romLoad :
    g.strobe 0x2040 8 = g.commanded 0x2040 8 fun g =>
      g.romLoad := by
  have hs : specOf true (0x2040 / 0x1000) (0x2040 % 0x1000) = some (_, _) := rfl
  have h1 : wbit (g.part.kept true 0x2040 ||| BitVec.ofNat 32 8) 1 = false :=
    commandWord_wbit g.part true 0x2040 8 1 _ _ hs (by decide) (by decide) (by decide)
  have h2 : wbit (g.part.kept true 0x2040 ||| BitVec.ofNat 32 8) 2 = false :=
    commandWord_wbit g.part true 0x2040 8 2 _ _ hs (by decide) (by decide) (by decide)
  have h3 : wbit (g.part.kept true 0x2040 ||| BitVec.ofNat 32 8) 3 = true :=
    commandWord_wbit g.part true 0x2040 8 3 _ _ hs (by decide) (by decide) (by decide)
  rw [g.strobe_command 0x2040 8 _ _ hs (by decide) (by decide) (by decide) (by decide) (by decide)]
  refine g.admitted_congr _ _ ?_
  simp only [Agg.writeActs]
  simp [aggClass, h1, h2, h3]

theorem Agg.strobe_planArm :
    g.strobe 0x3040 1 = g.commanded 0x3040 1 fun g =>
      g.planArm (g.part.kept true 0x3040 ||| BitVec.ofNat 32 1) := by
  have hs : specOf true (0x3040 / 0x1000) (0x3040 % 0x1000) = some (_, _) := rfl
  have h0 : wbit (g.part.kept true 0x3040 ||| BitVec.ofNat 32 1) 0 = true :=
    commandWord_wbit g.part true 0x3040 1 0 _ _ hs (by decide) (by decide) (by decide)
  have h1 : wbit (g.part.kept true 0x3040 ||| BitVec.ofNat 32 1) 1 = false :=
    commandWord_wbit g.part true 0x3040 1 1 _ _ hs (by decide) (by decide) (by decide)
  rw [g.strobe_command 0x3040 1 _ _ hs (by decide) (by decide) (by decide) (by decide) (by decide)]
  refine g.admitted_congr _ _ ?_
  simp only [Agg.writeActs]
  simp [aggClass, h0, h1]

theorem Agg.strobe_planStop :
    g.strobe 0x3040 2 = g.commanded 0x3040 2 fun g =>
      g.planStop := by
  have hs : specOf true (0x3040 / 0x1000) (0x3040 % 0x1000) = some (_, _) := rfl
  have h0 : wbit (g.part.kept true 0x3040 ||| BitVec.ofNat 32 2) 0 = false :=
    commandWord_wbit g.part true 0x3040 2 0 _ _ hs (by decide) (by decide) (by decide)
  have h1 : wbit (g.part.kept true 0x3040 ||| BitVec.ofNat 32 2) 1 = true :=
    commandWord_wbit g.part true 0x3040 2 1 _ _ hs (by decide) (by decide) (by decide)
  rw [g.strobe_command 0x3040 2 _ _ hs (by decide) (by decide) (by decide) (by decide) (by decide)]
  refine g.admitted_congr _ _ ?_
  simp only [Agg.writeActs]
  simp [aggClass, h0, h1]

theorem Agg.strobe_dramRetrain :
    g.strobe 0x20040 1 = g.commanded 0x20040 1 fun g =>
      g.dramRetrain := by
  have hs : specOf true (0x20040 / 0x1000) (0x20040 % 0x1000) = some (_, _) := rfl
  have h0 : wbit (g.part.kept true 0x20040 ||| BitVec.ofNat 32 1) 0 = true :=
    commandWord_wbit g.part true 0x20040 1 0 _ _ hs (by decide) (by decide) (by decide)
  rw [g.strobe_command 0x20040 1 _ _ hs (by decide) (by decide) (by decide) (by decide) (by decide)]
  refine g.admitted_congr _ _ ?_
  simp only [Agg.writeActs]
  simp [aggClass, h0]

theorem Agg.strobe_ptpArmRestep :
    g.strobe 0x4100 2 = g.commanded 0x4100 2 fun g =>
      g.ptpArm true := by
  have hs : specOf true (0x4100 / 0x1000) (0x4100 % 0x1000) = some (_, _) := rfl
  have h1 : wbit (g.part.kept true 0x4100 ||| BitVec.ofNat 32 2) 1 = true :=
    commandWord_wbit g.part true 0x4100 2 1 _ _ hs (by decide) (by decide) (by decide)
  have h2 : wbit (g.part.kept true 0x4100 ||| BitVec.ofNat 32 2) 2 = false :=
    commandWord_wbit g.part true 0x4100 2 2 _ _ hs (by decide) (by decide) (by decide)
  rw [g.strobe_command 0x4100 2 _ _ hs (by decide) (by decide) (by decide) (by decide) (by decide)]
  refine g.admitted_congr _ _ ?_
  simp only [Agg.writeActs, Part.testBit_rise]
  simp [aggClass, h1, h2]

theorem Agg.strobe_ptpDisarm :
    g.strobe 0x4100 4 = g.commanded 0x4100 4 fun g =>
      g.ptpArm false := by
  have hs : specOf true (0x4100 / 0x1000) (0x4100 % 0x1000) = some (_, _) := rfl
  have h1 : wbit (g.part.kept true 0x4100 ||| BitVec.ofNat 32 4) 1 = false :=
    commandWord_wbit g.part true 0x4100 4 1 _ _ hs (by decide) (by decide) (by decide)
  have h2 : wbit (g.part.kept true 0x4100 ||| BitVec.ofNat 32 4) 2 = true :=
    commandWord_wbit g.part true 0x4100 4 2 _ _ hs (by decide) (by decide) (by decide)
  rw [g.strobe_command 0x4100 4 _ _ hs (by decide) (by decide) (by decide) (by decide) (by decide)]
  refine g.admitted_congr _ _ ?_
  simp only [Agg.writeActs, Part.testBit_rise]
  simp [aggClass, h1, h2]

end Sys2Proof.Machine
end

