-- ==== Sys2Proof/Laws/Strobe2.lean ====
section
/-! SUPPORT. The commands that write command bits of one unit among many: a core, a barrier context, a tap, a port. -/

namespace Sys2Proof.Machine

open Sys2Proof

variable (d : Die) (hd : d.ready = true) (k : Nat)

/-! ### Cores -/

theorem dieClass_core (hk : k < 64) : dieClass (0x100 + k) = some .meanderCore := by
  have h : ∀ n : Nat, n < 0x100 → ¬ 0x100 + k = n := by intro n hn; omega
  simp only [dieClass, h _ (by decide : (0x000 : Nat) < 0x100), h _ (by decide : (0x001 : Nat) < 0x100),
    h _ (by decide : (0x002 : Nat) < 0x100), h _ (by decide : (0x003 : Nat) < 0x100), h _ (by decide : (0x008 : Nat) < 0x100),
    h _ (by decide : (0x009 : Nat) < 0x100), h _ (by decide : (0x010 : Nat) < 0x100), h _ (by decide : (0x018 : Nat) < 0x100),
    h _ (by decide : (0x030 : Nat) < 0x100), h _ (by decide : (0x031 : Nat) < 0x100), h _ (by decide : (0x040 : Nat) < 0x100),
    h _ (by decide : (0x041 : Nat) < 0x100), if_false]
  rw [if_neg (by omega), if_neg (by omega), if_neg (by omega), if_pos (by omega)]

theorem indPort_core (hk : k < 64) : indPort (0x100 + k) = none := by
  unfold indPort
  repeat rw [if_neg (by omega)]

theorem coreAddr_page (o : Nat) (ho : o < 0x1000) : (coreAddr k + o) / 0x1000 = 0x100 + k := by
  unfold coreAddr; omega
theorem coreAddr_off (o : Nat) (ho : o < 0x1000) : (coreAddr k + o) % 0x1000 = o := by
  unfold coreAddr; omega

/-- A strobe of a core's control register. -/
theorem Die.strobe_coreCtl (hd : d.ready = true) (hk : k < 64) (b : Nat) (hb : b = 0x10 ∨ b = 0x20 ∨ b = 0x40) :
    d.strobe (coreAddr k + 0x40) b = d.commanded (coreAddr k + 0x40) b fun d =>
      if b = 0x10 then d.haltWrite k else if b = 0x20 then d.resumeWrite k else d.syncNow k := by
  have hp := coreAddr_page k 0x40 (by decide)
  have ho := coreAddr_off k 0x40 (by decide)
  have hc := dieClass_core k hk
  have hf : findSpec meanderCoreRegs 0x40 = some (_, _) := rfl
  have hs := (show specOf false ((coreAddr k + 0x40) / 0x1000) ((coreAddr k + 0x40) % 0x1000) = findSpec meanderCoreRegs 0x40 by
    rw [hp, ho, specOf, pageClass, if_neg (by decide), hc]; rfl).trans hf
  have ha : dieBlockAddr (coreAddr k + 0x40) = true := by
    have h4 : (coreAddr k + 0x40) % 4 = 0 := by unfold coreAddr; omega
    simp [dieBlockAddr, hp, ho, hc, indPort_core k hk, h4]
  have hw (i : Nat) (hi : i < 32) (hn) := commandWord_wbit d.part false (coreAddr k + 0x40) b i _ _ hs
    (by rcases hb with h | h | h <;> subst h <;> decide) hi hn
  have h4 := hw 4 (by decide) (by decide)
  have h5 := hw 5 (by decide) (by decide)
  have h6 := hw 6 (by decide) (by decide)
  have hm : d.maskWrite (coreAddr k + 0x40) (d.part.kept false (coreAddr k + 0x40) ||| BitVec.ofNat 32 b) =
      some (d.part.kept false (coreAddr k + 0x40) ||| BitVec.ofNat 32 b) := by simp [Die.maskWrite, hp, hc]
  have hr (o n : Nat) (w : W32) : d.writeRefused (coreAddr k + 0x40) o n w = false := by simp [Die.writeRefused, hp, hc]
  have hx (w : W32) : Die.cmdConflict (coreAddr k + 0x40) w = false := by
    have h1 : (coreAddr k + 0x40 == 0x104C) = false := by rw [beq_eq_false_iff_ne]; unfold coreAddr; omega
    have h2 : (coreAddr k + 0x40 == 0x8040) = false := by rw [beq_eq_false_iff_ne]; unfold coreAddr; omega
    simp only [Die.cmdConflict, h1, h2, Bool.false_and, Bool.or_false]
  rw [d.strobe_command hd _ b _ _ hs ha (by rcases hb with h | h | h <;> subst h <;> decide) hm (hr _ _ _) (hx _)
    (by unfold coreAddr; omega)]
  refine d.admitted_congr _ _ ?_
  have hk' : 0x100 + k - 0x100 = k := by omega
  simp only [Die.writeActs, Part.testBit_bit, hp, ho, hc, h4, h5, h6, hk', Bool.false_and, if_true, if_false, Bool.false_eq_true]
  rcases hb with h | h | h <;> subst h <;> rfl

/-! ### Taps -/

theorem dieClass_tap (p : Nat) (h : 0x80 ≤ p) (h' : p ≤ 0xFF) : dieClass p = some .rill := by
  unfold dieClass
  repeat rw [if_neg (by omega)]
  rw [if_pos (by omega)]

theorem indPort_tap (p : Nat) (h : 0x80 ≤ p) (h' : p ≤ 0xFF) : indPort p = none := by
  unfold indPort
  repeat rw [if_neg (by omega)]

/-- A strobe of a tap's control register sets CLR_PENDING. -/
theorem Die.strobe_tapClr (hd : d.ready = true) (hk : k < 2048) :
    d.strobe (tapBase k) 1 = d.commanded (tapBase k) 1 fun d =>
      d.onPart fun p => p.setBit (tapBase k) 3 true := by
  have hp : tapBase k / 0x1000 = 0x80 + k / 16 := by unfold tapBase tapPage; omega
  have ho : tapBase k % 0x1000 = 0x40 + (k % 16) * 0xC0 := by unfold tapBase tapPage; omega
  have hc := dieClass_tap (0x80 + k / 16) (by omega) (by omega)
  have hso : slotOff .rill (0x40 + (k % 16) * 0xC0) = some (0, k % 16) := by
    simp only [slotOff, slotShape]
    rw [if_neg (by omega), if_pos (by omega)]
    congr 2 <;> omega
  have hf : findSpec rillRegs 0 = some (_, _) := rfl
  have hs := (show specOf false (tapBase k / 0x1000) (tapBase k % 0x1000) = findSpec rillRegs 0 by
    rw [hp, ho, specOf, pageClass, if_neg (by decide), hc]; simp only [hso]; rfl).trans hf
  have ha : dieBlockAddr (tapBase k) = true := by
    have h4 : tapBase k % 4 = 0 := by unfold tapBase tapPage; omega
    simp [dieBlockAddr, hp, ho, hc, indPort_tap _ (show 0x80 ≤ 0x80 + k / 16 by omega) (by omega), h4]
  have h0 := commandWord_wbit d.part false (tapBase k) 1 0 _ _ hs (by decide) (by decide) (by decide)
  have hm (w : W32) : d.maskWrite (tapBase k) w = some w := by simp [Die.maskWrite, hp, hc]
  have hr (o n : Nat) (w : W32) : d.writeRefused (tapBase k) o n w = false := by simp [Die.writeRefused, hp, hc]
  have hx (w : W32) : Die.cmdConflict (tapBase k) w = false := by
    have h1 : (tapBase k == 0x104C) = false := by rw [beq_eq_false_iff_ne]; unfold tapBase tapPage; omega
    have h2 : (tapBase k == 0x8040) = false := by rw [beq_eq_false_iff_ne]; unfold tapBase tapPage; omega
    simp only [Die.cmdConflict, h1, h2, Bool.false_and, Bool.or_false]
  rw [d.strobe_command hd _ 1 _ _ hs ha (by decide) (hm _) (hr _ _ _) (hx _) (by unfold tapBase tapPage; omega)]
  refine d.admitted_congr _ _ ?_
  simp only [Die.writeActs, hp, ho, hc, hso, h0]; rfl

/-! ### Barrier contexts -/

theorem dieClass_ctx (hk : k < 256) : dieClass (4 + k / 64) = some .boreBar := by
  unfold dieClass
  repeat rw [if_neg (by omega)]
  rw [if_pos (by omega)]

theorem indPort_ctx (hk : k < 256) : indPort (4 + k / 64) = none := by
  unfold indPort
  repeat rw [if_neg (by omega)]

/-- A strobe of RESET in a context's control register. -/
theorem Die.strobe_ctxReset (hd : d.ready = true) (hk : k < 256) : d.strobe (ctxAddr k) 0x80 = d.commanded (ctxAddr k) 0x80 fun d =>
      d.ctxReset k := by
  have hp : ctxAddr k / 0x1000 = 4 + k / 64 := by unfold ctxAddr ctxPage; omega
  have ho : ctxAddr k % 0x1000 = 0x40 + (k % 64) * 0x20 := by unfold ctxAddr ctxPage; omega
  have hc := dieClass_ctx k hk
  have hso : slotOff .boreBar (0x40 + (k % 64) * 0x20) = some (0, k % 64) := by
    simp only [slotOff, slotShape]
    rw [if_neg (by omega), if_pos (by omega)]
    congr 2 <;> omega
  have hf : findSpec boreBarRegs 0 = some (_, _) := rfl
  have hs := (show specOf false (ctxAddr k / 0x1000) (ctxAddr k % 0x1000) = findSpec boreBarRegs 0 by
    rw [hp, ho, specOf, pageClass, if_neg (by decide), hc]; simp only [hso]; rfl).trans hf
  have ha : dieBlockAddr (ctxAddr k) = true := by
    have h4 : ctxAddr k % 4 = 0 := by unfold ctxAddr ctxPage; omega
    simp [dieBlockAddr, hp, ho, hc, indPort_ctx k hk, h4]
  have h7 := commandWord_wbit d.part false (ctxAddr k) 0x80 7 _ _ hs (by decide) (by decide) (by decide)
  have hm (w : W32) : d.maskWrite (ctxAddr k) w = some w := by simp [Die.maskWrite, hp, hc]
  have hr (o n : Nat) (w : W32) : d.writeRefused (ctxAddr k) o n w = false := by
    simp only [Die.writeRefused, hp, ho, hc, hso]
  have hx (w : W32) : Die.cmdConflict (ctxAddr k) w = false := by
    have h1 : (ctxAddr k == 0x104C) = false := by rw [beq_eq_false_iff_ne]; unfold ctxAddr ctxPage; omega
    have h2 : (ctxAddr k == 0x8040) = false := by rw [beq_eq_false_iff_ne]; unfold ctxAddr ctxPage; omega
    simp only [Die.cmdConflict, h1, h2, Bool.false_and, Bool.or_false]
  rw [d.strobe_command hd _ 0x80 _ _ hs ha (by decide) (hm _) (hr _ _ _) (hx _) (by unfold ctxAddr ctxPage; omega)]
  refine d.admitted_congr _ _ ?_
  have he : (4 + k / 64 - 4) * 64 + k % 64 = k := by omega
  simp only [Die.writeActs, hp, ho, hc, hso, h7, Part.testBit_bit, he]; rfl

/-! ### Ports of the aggregator -/

variable (g : Agg)

theorem aggClass_trib (hk : k < 16) : aggClass (0x10 + k) = some .tribPort := by
  unfold aggClass
  repeat rw [if_neg (by omega)]
  rw [if_pos (by omega)]

theorem aggPort_trib (hk : k < 16) : aggPort (0x10 + k) = none := by
  unfold aggPort
  repeat rw [if_neg (by omega)]

theorem tribAddr_page (o : Nat) (ho : o < 0x1000) : (tribAddr k + o) / 0x1000 = 0x10 + k := by unfold tribAddr; omega
theorem tribAddr_off (o : Nat) (ho : o < 0x1000) : (tribAddr k + o) % 0x1000 = o := by unfold tribAddr; omega

/-- A strobe of RETRAIN of a Tributary port. -/
theorem Agg.strobe_retrain (hk : k < 16) :
    g.strobe (tribAddr k + 0x40) 1 = g.commanded (tribAddr k + 0x40) 1 fun g =>
      g.laneAct k fun p s => linkRestart p s (some k) 5 := by
  have hp := tribAddr_page k 0x40 (by decide)
  have ho := tribAddr_off k 0x40 (by decide)
  have hc := aggClass_trib k hk
  have hf : findSpec (linkRegs ++ schedRegs) 0x40 = some (_, _) := rfl
  have hs := (show specOf true ((tribAddr k + 0x40) / 0x1000) ((tribAddr k + 0x40) % 0x1000) = findSpec (linkRegs ++ schedRegs) 0x40 by
    rw [hp, ho, specOf, pageClass, if_pos rfl, hc]; rfl).trans hf
  have ha : aggBlockAddr (tribAddr k + 0x40) = true := by
    have h4 : (tribAddr k + 0x40) % 4 = 0 := by unfold tribAddr; omega
    simp [aggBlockAddr, hp, ho, hc, aggPort_trib k hk, h4]
  have h0 := commandWord_wbit g.part true (tribAddr k + 0x40) 1 0 _ _ hs (by decide) (by decide) (by decide)
  have hcp : cmdPage (0x10 + k) = none := by unfold cmdPage; rw [if_neg (by omega)]
  rw [g.strobe_command _ 1 _ _ hs ha (by decide) (by rw [hp]; omega) (by rw [hp]; omega) (by rw [hp, hcp]; simp)]
  refine g.admitted_congr _ _ ?_
  have hk' : 0x10 + k - 0x10 = k := by omega
  simp only [Agg.writeActs, hp, ho, hc, h0, hk']; rfl

/-- A strobe of SWITCH_ARM of a Tributary port's gate schedule. -/
theorem Agg.strobe_gclArm (hk : k < 16) :
    g.strobe (tribAddr k + 0x12C) 1 = g.commanded (tribAddr k + 0x12C) 1 fun g =>
      g.onLane k fun p s => gclArm p s (some k) := by
  have hp := tribAddr_page k 0x12C (by decide)
  have ho := tribAddr_off k 0x12C (by decide)
  have hc := aggClass_trib k hk
  have hf : findSpec (linkRegs ++ schedRegs) 0x12C = some (_, _) := rfl
  have hs := (show specOf true ((tribAddr k + 0x12C) / 0x1000) ((tribAddr k + 0x12C) % 0x1000) = findSpec (linkRegs ++ schedRegs) 0x12C by
    rw [hp, ho, specOf, pageClass, if_pos rfl, hc]; rfl).trans hf
  have ha : aggBlockAddr (tribAddr k + 0x12C) = true := by
    have h4 : (tribAddr k + 0x12C) % 4 = 0 := by unfold tribAddr; omega
    simp [aggBlockAddr, hp, ho, hc, aggPort_trib k hk, h4]
  have h0 := commandWord_wbit g.part true (tribAddr k + 0x12C) 1 0 _ _ hs (by decide) (by decide) (by decide)
  have hcp : cmdPage (0x10 + k) = none := by unfold cmdPage; rw [if_neg (by omega)]
  rw [g.strobe_command _ 1 _ _ hs ha (by decide) (by rw [hp]; omega) (by rw [hp]; omega) (by rw [hp, hcp]; simp)]
  refine g.admitted_congr _ _ ?_
  have hk' : 0x10 + k - 0x10 = k := by omega
  simp only [Agg.writeActs, hp, ho, hc, h0, hk']; rfl

/-- A strobe of RETRAIN of an Ethernet port. -/
theorem Agg.strobe_ethRetrain (hk : k < 2) : g.strobe (ethPage k + 0x40) 8 = g.commanded (ethPage k + 0x40) 8 fun g =>
      g.ethDown k 3 := by
  have hp : (ethPage k + 0x40) / 0x1000 = 8 + k := by unfold ethPage; omega
  have ho : (ethPage k + 0x40) % 0x1000 = 0x40 := by unfold ethPage; omega
  have hc : aggClass (8 + k) = some .eth := by
    unfold aggClass
    repeat rw [if_neg (by omega)]
    rw [if_pos (by omega)]
  have hpt : aggPort (8 + k) = none := by
    unfold aggPort
    repeat rw [if_neg (by omega)]
  have hf : findSpec ethRegs 0x40 = some (_, _) := rfl
  have hs := (show specOf true ((ethPage k + 0x40) / 0x1000) ((ethPage k + 0x40) % 0x1000) = findSpec ethRegs 0x40 by
    rw [hp, ho, specOf, pageClass, if_pos rfl, hc]; rfl).trans hf
  have ha : aggBlockAddr (ethPage k + 0x40) = true := by
    have h4 : (ethPage k + 0x40) % 4 = 0 := by unfold ethPage; omega
    simp [aggBlockAddr, hp, ho, hc, hpt, h4]
  have h3 := commandWord_wbit g.part true (ethPage k + 0x40) 8 3 _ _ hs (by decide) (by decide) (by decide)
  have hcp : cmdPage (8 + k) = none := by unfold cmdPage; rw [if_neg (by omega)]
  rw [g.strobe_command _ 8 _ _ hs ha (by decide) (by rw [hp]; omega) (by rw [hp]; omega) (by rw [hp, hcp]; simp)]
  refine g.admitted_congr _ _ ?_
  have hk' : 8 + k - 8 = k := by omega
  simp only [Agg.writeActs, hp, ho, hc, h3, hk']; rfl

end Sys2Proof.Machine
end

