-- ==== Sys2Proof/Laws/Writes.lean ====
section
/-! SUPPORT. What a write of a register that holds nothing but commands comes to on its part; and what a command comes to on a part that does not take it. -/

namespace Sys2Proof.Machine

open Sys2Proof

/-- A write of BUF_CTL. -/
theorem Die.writePort_bufCtl (d : Die) (h : d.ready = true) (w : W32) : d.writePort 0x140044 w .ok = d.admitted 0x140044 w fun d => d.bufCmd w := by
  rw [d.writePort_ready h, d.regWrite_block 0x140044 _ .ok rfl (by decide)]
  refine d.admitted_congr _ _ ((d.blockWrite_wo 0x140044 _ _ _ rfl (by decide) rfl rfl rfl (by decide)).trans ?_)
  simp [Die.writeActs, dieClass]

/-- A write of IDENT_CTL. -/
theorem Die.writePort_identCtl (d : Die) (h : d.ready = true) (w : W32) : d.writePort 0x41040 w .ok = d.admitted 0x41040 w fun d => d.identCtl w := by
  rw [d.writePort_ready h, d.regWrite_block 0x41040 _ .ok rfl (by decide)]
  refine d.admitted_congr _ _ ((d.blockWrite_wo 0x41040 _ _ _ rfl (by decide) rfl rfl rfl (by decide)).trans ?_)
  simp [Die.writeActs, dieClass]

/-- A write of HEARTBEAT. -/
theorem Agg.barWrite_heartbeat (g : Agg) (w : W32) : g.barWrite 0x204C w .ok = g.admitted 0x204C w fun g => g.heartbeat w := by
  rw [g.barWrite_block 0x204C w .ok rfl (by decide)]
  refine g.admitted_congr _ _ ((g.blockWrite_wo 0x204C w _ _ rfl (by decide) (by decide) (by decide) (by decide)).trans ?_)
  simp [Agg.writeActs, aggClass]

/-- A write of ATTACH. -/
theorem Agg.barWrite_attach (g : Agg) (w : W32) : g.barWrite 0x2050 w .ok = g.admitted 0x2050 w fun g => g.attach w := by
  rw [g.barWrite_block 0x2050 w .ok rfl (by decide)]
  refine g.admitted_congr _ _ ((g.blockWrite_wo 0x2050 w _ _ rfl (by decide) (by decide) (by decide) (by decide)).trans ?_)
  simp [Agg.writeActs, aggClass]

/-- A write of DRIFT_MODEL_CTL. -/
theorem Agg.barWrite_driftModel (g : Agg) (w : W32) : g.barWrite 0x10F4 w .ok = g.admitted 0x10F4 w (fun g =>
    let g := if wbit w 0 then g.modelValidate (bitsOf w.toNat 1 3) else g
    if wbit w 4 then g.modelArm (bitsOf w.toNat 1 3) w else g) := by
  rw [g.barWrite_block 0x10F4 w .ok rfl (by decide)]
  refine g.admitted_congr _ _ ((g.blockWrite_wo 0x10F4 w _ _ rfl (by decide) (by decide) (by decide) (by decide)).trans ?_)
  simp [Agg.writeActs, aggClass]

/-- A write of DIE_STATE of a lane. -/
theorem Agg.barWrite_dieState (g : Agg) (l : Lane) (w : W32) : g.barWrite (dieState l) w .ok = g.admitted (dieState l) w fun g => g.dieStateWrite l w := by
  obtain ⟨r, hs⟩ : ∃ r, specOf true (dieState l / 0x1000) (dieState l % 0x1000) = some r :=
    Option.isSome_iff_exists.mp (by revert l; decide)
  have hb : aggBlockAddr (dieState l) = true := by clear hs; revert l; decide
  rw [g.barWrite_block _ _ _ (by rw [hs]; rfl) hb]
  refine g.admitted_congr _ _ ?_
  unfold Agg.blockWrite
  have h1 : dieState l / 0x1000 = 1 := by unfold dieState; omega
  have h2 : dieState l % 0x1000 = 0x100 + 4 * l := by unfold dieState; omega
  have h3 : 0x100 + 4 * l.val < 0x140 := by omega
  have h4 : (0x100 + 4 * l.val - 0x100) / 4 = l.val := by omega
  have h5 : 0x100 ≤ 0x100 + 4 * l.val := by omega
  simp only [hs]
  simp only [h1, h2]
  rw [if_pos ⟨trivial, h5, h3⟩, h4]

/-! ### PAGE_CTL with one command bit -/

theorem Die.pageCtl_enable (d : Die) (page : Nat) :
    d.pageCtl page 1 = if d.part.armedAt page 6 then d.onPart fun p => p.cmdErr page 1 else d.pageEnable page 1 := by
  have h0 : wbit (BitVec.ofNat 32 1) 0 = true := by decide
  have h1 : wbit (BitVec.ofNat 32 1) 1 = false := by decide
  have h2 : wbit (BitVec.ofNat 32 1) 2 = false := by decide
  have h3 : wbit (BitVec.ofNat 32 1) 3 = false := by decide
  simp [Die.pageCtl, ctlRefused, h0, h1, h2, h3]
theorem Die.pageCtl_drain (d : Die) (page : Nat) :
    d.pageCtl page 2 = if d.part.armedAt page 6 then d.onPart fun p => p.cmdErr page 2 else d.pageDrain page := by
  have h0 : wbit (BitVec.ofNat 32 2) 0 = false := by decide
  have h1 : wbit (BitVec.ofNat 32 2) 1 = true := by decide
  have h2 : wbit (BitVec.ofNat 32 2) 2 = false := by decide
  have h3 : wbit (BitVec.ofNat 32 2) 3 = false := by decide
  simp [Die.pageCtl, ctlRefused, h0, h1, h2, h3]
theorem Die.pageCtl_softClear (d : Die) (page : Nat) : d.pageCtl page 4 = d.softClear page := by
  have h0 : wbit (BitVec.ofNat 32 4) 0 = false := by decide
  have h1 : wbit (BitVec.ofNat 32 4) 1 = false := by decide
  have h2 : wbit (BitVec.ofNat 32 4) 2 = true := by decide
  have h3 : wbit (BitVec.ofNat 32 4) 3 = false := by decide
  simp [Die.pageCtl, ctlRefused, h0, h1, h2, h3]
theorem Die.pageCtl_lock (d : Die) (page : Nat) :
    d.pageCtl page 8 = d.onPart fun p => p.modHdr page fun h => { h with lock := true } := by
  have h0 : wbit (BitVec.ofNat 32 8) 0 = false := by decide
  have h1 : wbit (BitVec.ofNat 32 8) 1 = false := by decide
  have h2 : wbit (BitVec.ofNat 32 8) 2 = false := by decide
  have h3 : wbit (BitVec.ofNat 32 8) 3 = true := by decide
  simp [Die.pageCtl, ctlRefused, h0, h1, h2, h3]
theorem Agg.pageCtl_enable (g : Agg) (page : Nat) :
    g.pageCtl page 1 = if g.part.armedAt page 6 then g.onPart fun p => p.cmdErr page 1 else g.pageEnable page 1 := by
  have h0 : wbit (BitVec.ofNat 32 1) 0 = true := by decide
  have h1 : wbit (BitVec.ofNat 32 1) 1 = false := by decide
  have h2 : wbit (BitVec.ofNat 32 1) 2 = false := by decide
  have h3 : wbit (BitVec.ofNat 32 1) 3 = false := by decide
  simp [Agg.pageCtl, ctlRefused, h0, h1, h2, h3]
theorem Agg.pageCtl_drain (g : Agg) (page : Nat) :
    g.pageCtl page 2 = if g.part.armedAt page 6 then g.onPart fun p => p.cmdErr page 2 else g.pageDrain page := by
  have h0 : wbit (BitVec.ofNat 32 2) 0 = false := by decide
  have h1 : wbit (BitVec.ofNat 32 2) 1 = true := by decide
  have h2 : wbit (BitVec.ofNat 32 2) 2 = false := by decide
  have h3 : wbit (BitVec.ofNat 32 2) 3 = false := by decide
  simp [Agg.pageCtl, ctlRefused, h0, h1, h2, h3]
theorem Agg.pageCtl_softClear (g : Agg) (page : Nat) : g.pageCtl page 4 = g.softClear page := by
  have h0 : wbit (BitVec.ofNat 32 4) 0 = false := by decide
  have h1 : wbit (BitVec.ofNat 32 4) 1 = false := by decide
  have h2 : wbit (BitVec.ofNat 32 4) 2 = true := by decide
  have h3 : wbit (BitVec.ofNat 32 4) 3 = false := by decide
  simp [Agg.pageCtl, ctlRefused, h0, h1, h2, h3]
theorem Agg.pageCtl_lock (g : Agg) (page : Nat) :
    g.pageCtl page 8 = g.onPart fun p => p.modHdr page fun h => { h with lock := true } := by
  have h0 : wbit (BitVec.ofNat 32 8) 0 = false := by decide
  have h1 : wbit (BitVec.ofNat 32 8) 1 = false := by decide
  have h2 : wbit (BitVec.ofNat 32 8) 2 = false := by decide
  have h3 : wbit (BitVec.ofNat 32 8) 3 = true := by decide
  simp [Agg.pageCtl, ctlRefused, h0, h1, h2, h3]

/-- ERR_INJECT with a bit set (R38, R47). -/
theorem Part.hdrWrite_inject (p : Part) (page : Nat) (w : W32) (h : w.setWidth 8 ≠ 0) :
    p.hdrWrite page 0x14 w = if (p.hdr page).lock then p.accessErr page (page * 0x1000 + 0x14) w true
      else p.modHdr page fun h => { h with armed := h.armed ||| w.setWidth 8 } := if_neg h

/-- What a descriptor whose effect has not begun is (R366). -/
theorem Agg.ready_some {g : Agg} {i k op : Nat} {d : Desc} (h : g.ready i k op = some d) :
    g.desc i k = some d ∧ d.phase = .fetched ∧ dget d.bytes 0 1 = op := by
  unfold Agg.ready at h
  cases hd : g.desc i k with
  | none => rw [hd] at h; cases h
  | some x =>
    rw [hd] at h
    simp only [Option.ite_none_right_eq_some, Option.some.injEq] at h
    obtain ⟨⟨a, b⟩, c⟩ := h
    subst c
    exact ⟨rfl, a, b⟩

/-! ### Parts that do not take a command -/

theorem State.onDie_id (s : State) (l : Lane) : s.onDie l (fun d => d) = s := by
  unfold State.onDie State.die
  cases s
  congr 1
  exact Vector.set_getElem_self _

theorem State.dieReady_off (s : State) (l : Lane) (f : Die → Die) (h : (s.die l).powered = false) :
    s.dieReady l f = .next s := by
  rw [State.dieReady, s.onDie_congr l _ (fun d => d) (by simp [Die.whenReady, h]), s.onDie_id]

theorem State.diePowered_off (s : State) (l : Lane) (f : Die → Die) (h : (s.die l).powered = false) :
    s.diePowered l f = .next s := by
  rw [State.diePowered, s.onDie_congr l _ (fun d => d) (by simp [Die.whenPowered, h]), s.onDie_id]

theorem State.aggReady_off (s : State) (f : Agg → Agg) (h : s.agg.phase ≠ .ready) : s.aggReady f = .next s := by
  rw [State.aggReady, s.onAgg_congr (g' := fun d => d) (by simp [Agg.whenReady, h])]
  rfl

end Sys2Proof.Machine
end

