-- ==== Sys2Proof/WellFormed.lean ====
section
/-! DEFINITION. Well-formed commands: operands that fit the fields the manual gives them. -/

namespace Sys2Proof.Machine

/-- A number of at most `b` bits. -/
def fits (b n : Nat) : Bool := decide (n < 2 ^ b)
/-- The address of a register word (R8: words of 32 bits). -/
def wordAddr (a : Nat) : Bool := decide (a % 4 = 0)
/-- A check result: corrected bits are at least one. -/
def Ecc.wf : Ecc → Bool
  | .ce n => decide (1 ≤ n ∧ n < 256)
  | _ => true
/-- An event whose fields fit the 32-byte body of R223. -/
def BoreEvent.wf (e : BoreEvent) : Bool :=
  fits 8 e.typ && fits 8 e.qual && fits 8 e.scope && fits 16 e.partition && fits 16 e.seq && fits 32 e.source &&
    fits 32 e.dest && fits 64 e.exec && fits 32 e.arg0 && fits 32 e.arg1 && fits 8 e.rsv
/-- A pair frame whose fields fit R222. -/
def PairFrame.wf (f : PairFrame) : Bool :=
  fits 8 f.start && fits 8 f.copy && fits 16 f.seq && f.body.wf && fits 32 f.crc
/-- What the lanes of one pair position carried: at most three frames (R220). -/
def copiesWf (cs : List (Option PairFrame)) : Bool := decide (cs.length ≤ 3) && cs.all fun c => c.all PairFrame.wf
/-- A cell header whose fields fit R271. -/
def CellHdr.wf (h : CellHdr) : Bool := fits 8 h.queue && fits 16 h.cseq && fits 16 h.len && h.badType.all (fits 8)
/-- A frame as a port sees it (R378, R311): a 48-bit source address, a 16-bit sequence and a LanId of 4 bits, and the fields
of a tree payload's header with its CRC. -/
def EthHdr.wf (h : EthHdr) : Bool :=
  fits 48 h.src && fits 8 h.version && fits 32 h.node && fits 32 h.seq && fits 32 h.crc &&
    h.prp.all fun x => fits 16 x.1 && fits 4 x.2
/-- A BCAST frame with one of its four OP codes. -/
def Bcast.wf (m : Bcast) : Bool :=
  fits 32 m.id && decide (1 ≤ m.op ∧ m.op ≤ 4) && fits 32 m.adoptFor && fits 64 m.decideAt && m.body.wf
/-- One of the 32 stage-period monitors (R95). -/
def MonSample.wf (s : MonSample) : Bool := decide (s.m < 32) && fits 32 s.live && fits 48 s.selfNs && fits 16 s.replica && s.ecc.wf
/-- A tap record whose fields fit their widths (R422). -/
def TapRec.wf (r : TapRec) : Bool := fits 3 r.brCount && fits 4 r.brTaken && fits 3 r.status && fits 8 r.lp &&
  r.ind.all (fun i => fits 2 i.1 && fits 16 i.2.1 && fits 64 i.2.2.1 && fits 64 i.2.2.2) &&
  r.data.all (fun a => fits 2 a.2.1 && fits 64 a.2.2.1 && fits 64 a.2.2.2)
/-- Ties of taps and engines that exist (chapter 18). -/
def Ties.wf (t : Ties) : Bool := t.tapAbsent.all (fun e => decide (e.1 < 2048)) && t.engAbsent.all fun e => decide (e.1 < 640)
/-- What a host read gave: a fault names its cause (R363). -/
def HostRead.wf : HostRead → Bool
  | .fault c => decide (c = 1 ∨ c = 2)
  | .data _ => true

end Sys2Proof.Machine

namespace Sys2Proof

open Sys2Proof.Machine

/-- Whether a command is well formed. -/
def Instr.wf : Instr → Bool
  | .pageEnable _ _ => true
  | .pageDrain _ _ => true
  | .softClear _ _ => true
  | .pageLock _ _ => true
  | .enableDone _ _ => true
  | .drainDone _ _ => true
  | .drainTimeout _ _ => true
  | .errStatClear _ _ _ => true
  | .errInjectArm _ _ _ => true
  | .registerWrite _ addr _ => wordAddr addr.toNat
  | .unassignedAccess _ addr _ => wordAddr addr.toNat
  | .wideLowRead _ _ addr => wordAddr addr.toNat
  | .highWordRead _ _ addr => wordAddr addr.toNat
  | .indDataRead _ _ _ ecc => ecc.wf
  | .indDataWrite _ _ _ ecc => ecc.wf
  | .diePowerUp _ _ ties => ties.wf
  | .dieReady _ _ => true
  | .diePowerLoss _ => true
  | .earlyAccess _ => true
  | .gdidSet _ _ => true
  | .refLoss _ => true
  | .refReturn _ => true
  | .exchangeStart => true
  | .timeSync _ h exch t1 cDown => h.wf && fits 32 exch && fits 80 t1 && fits 64 cDown
  | .timeDelay _ h exch => h.wf && fits 32 exch
  | .timeResp _ h exch x => h.wf && fits 32 exch && fits 80 x.t4 && x.samples.all MonSample.wf
  | .exchangeIncomplete _ => true
  | .holdTimeout _ => true
  | .armRestep _ => true
  | .disarm _ => true
  | .servoEnWrite _ _ => true
  | .windowBoundary _ ss => ss.all MonSample.wf
  | .switchArm _ => true
  | .triggerFire _ => true
  | .adapterTimeout _ _ port phase _ => fits 16 port && fits 8 phase
  | .deadlineMiss _ _ stage unit => fits 8 stage && fits 16 unit
  | .stageHang _ _ stage unit => fits 8 stage && fits 16 unit
  | .baseClear _ => true
  | .stepMarker _ _ _ lost => lost.all (fits 32)
  | .stepStoreSend _ => true
  | .deltasReady _ => true
  | .tapClr _ _ => true
  | .springConfigWrite _ addr _ => wordAddr addr.toNat
  | .retentionSend x => x.reads.all Ecc.wf
  | .riffleValidate _ => true
  | .riffleValidationDone _ word ecc => fits 16 word && ecc.wf
  | .riffleSwapArm _ => true
  | .featuresReady _ word ecc => fits 16 word && ecc.wf
  | .eddyValidate _ _ => true
  | .eddyValidationDone _ word ecc => fits 32 word && ecc.wf
  | .eddySwapArm _ _ => true
  | .scoresDelivered _ _ reads => (reads.all fun r => decide (r.1 < 4) && r.2.2.wf)
  | .probeDue _ x => x.ecc.wf
  | .probeIssue _ _ _ load => fits 8 load
  | .stealWaitExpired _ _ => true
  | .probeResult _ tag status x => fits 16 tag && fits 8 status && x.ecc.wf
  | .selftestStart _ => true
  | .probeTimeout _ tag => fits 16 tag
  | .engineErr _ _ code => fits 8 code
  | .refRetest _ => true
  | .refSelftestDone _ _ tile mac => fits 32 tile && fits 32 mac
  | .selftestReq _ _ => true
  | .replayGo _ => true
  | .levelWr _ _ _ => true
  | .tapCapture _ _ fmt _ _ _ => fits 8 fmt
  | .gateRequest _ _ => true
  | .decideAt _ => true
  | .gateResponseAck _ => true
  | .responseRepresent _ => true
  | .verdictRelease _ _ => true
  | .verdictDiscard _ _ => true
  | .disputeSet _ => true
  | .disputeClr _ _ => true
  | .disputeCell _ h tag unit => h.wf && fits 16 tag && fits 16 unit
  | .boreFrameReceive _ _ copy seq ends e => PairFrame.wf ⟨ends.start, copy, seq, e, ends.crc⟩
  | .voteWindowExpired _ => true
  | .copyReset _ => true
  | .launch x => fits 3 x.copies
  | .aggBoreEcho _ copies => copiesWf copies
  | .relayFrameReceive h group e => h.wf && fits 48 group && e.wf
  | .eventAckReceive _ copies => copiesWf copies
  | .snapshotPartSend _ => true
  | .coreArrive x _ _ _ => fits 3 x.copies
  | .registerArrive x _ _ _ => fits 3 x.copies
  | .contextReset _ _ => true
  | .contextEnable _ _ => true
  | .coreTapRecord _ _ rcd => rcd.wf
  | .frameFormTimeout _ _ => true
  | .frameSend _ => true
  | .syncNow _ _ => true
  | .coreHalt _ _ => true
  | .coreResume _ _ => true
  | .coreHalted _ _ => true
  | .coreDrained _ _ => true
  | .coreRunning _ _ => true
  | .comparatorWrite _ _ off _ => wordAddr off.toNat
  | .compAck _ _ => true
  | .compMatch _ _ _ _ => true
  | .crossLaunch x => fits 3 x.copies
  | .bufArm _ => true
  | .bufDisarm _ => true
  | .trigNow _ => true
  | .bufUpload _ => true
  | .traceUploadSend _ => true
  | .compressionDone _ => true
  | .cellSend _ x => fits 32 x.ns && x.ecc.wf
  | .gateCycleBoundary _ => true
  | .gclEntryAdvance _ => true
  | .gclSwitchArm _ => true
  | .recordCell _ h _ fill => h.wf && decide (fill ≤ 100)
  | .regReq _ h id op nwords addr data es => h.wf && fits 16 id && fits 8 op && fits 8 nwords && fits 32 addr && decide (data.length ≤ 64) && es.all Ecc.wf
  | .regReqPerform _ es => es.all Ecc.wf
  | .regResp _ h id status nwords data => h.wf && fits 16 id && fits 8 status && fits 8 nwords && decide (data.length ≤ 64)
  | .bulk _ h id target _ offset _ => h.wf && fits 16 id && fits 8 target && fits 32 offset
  | .bulkAck _ h id status offset => h.wf && fits 16 id && fits 8 status && fits 32 offset
  | .selftestReqCell _ h engine tag => h.wf && fits 16 engine && fits 16 tag
  | .boreNote _ h e time status => h.wf && e.wf && fits 64 time && fits 8 status
  | .train _ h role port id _ => h.cell.wf && fits 8 role && fits 8 h.version && fits 8 port && fits 32 id
  | .trainSend _ => true
  | .linkLock _ => true
  | .linkLoss _ cause _ _ at_ => fits 8 cause && fits 64 at_
  | .trainTimeout _ => true
  | .retrain _ => true
  | .stepRecordReceive _ _ => true
  | .closeExpired job step => fits 32 job && fits 32 step
  | .sketchSend _ => true
  | .sketchReceive h seg => h.wf && fits 32 seg.offset && fits 32 seg.total
  | .driftPeriod => true
  | .driftScoringDone => true
  | .expelRetry _ => true
  | .expelReq h gdid partition entity score => h.wf && fits 32 gdid && fits 16 partition && fits 32 entity && fits 32 score
  | .expelResp h gdid result cause => h.wf && fits 32 gdid && fits 8 result && fits 8 cause
  | .budgetMinute => true
  | .aliveExpired _ _ => true
  | .disagreeExpired _ => true
  | .dieDisputeClr _ _ => true
  | .recClr _ => true
  | .bcastReceive h m _ => h.wf && m.wf
  | .hopAck h id op => h.wf && fits 32 id && fits 8 op
  | .hopAckTimeout id node => fits 32 id && fits 32 node
  | .ackGatherExpired id => fits 32 id
  | .ready h id op pooled refused unreached node => h.wf && fits 32 id && fits 8 op && fits 32 pooled && fits 32 refused && fits 32 unreached && fits 32 node
  | .bcastDecide id => fits 32 id
  | .confirm h m _ => h.wf && m.wf
  | .bcastAbort h m body _ => h.wf && m.wf && body.wf
  | .confirmAckCheck id => fits 32 id
  | .traySelfAbort id => fits 32 id
  | .startSplit id => fits 32 id
  | .freezeNow => true
  | .unfreeze => true
  | .freezePostExpired => true
  | .freezeMaxExpired => true
  | .modelValidate _ => true
  | .modelSwapArm _ => true
  | .watchdogExpiry _ _ => true
  | .coreSelfCheckDone _ => true
  | .checkpoint _ => true
  | .checkpointLate _ => true
  | .reqTail _ _ => true
  | .ping _ => true
  | .getInfo _ => true
  | .getLog _ => true
  | .fwVerify _ => true
  | .fwActivate _ => true
  | .fwCommit _ => true
  | .fwRevert _ => true
  | .sbRead _ => true
  | .sbWrite _ => true
  | .sbScan _ => true
  | .sbTransactionDone _ _ _ => true
  | .sbTimeout _ => true
  | .sbAlert _ addr => fits 8 addr
  | .imageVerifyDone crypt => fits 8 crypt
  | .newReady => true
  | .newRefuse => true
  | .handoffTimeout => true
  | .probationEnd => true
  | .stagingWrite off _ => decide (off < 0x4000000)
  | .romLoad => true
  | .bootLoadDone _ _ => true
  | .heartbeat _ => true
  | .attach _ => true
  | .attachDone => true
  | .detach => true
  | .hostTimeout => true
  | .busLoss cause => fits 8 cause
  | .adcConversion _ _ => true
  | .vrmOffExpired _ => true
  | .shutClr _ => true
  | .forceThrottle _ => true
  | .limitTighten addr _ => wordAddr addr.toNat
  | .powerGrant _ _ => true
  | .pstepNoGrant _ => true
  | .planArm => true
  | .planStop => true
  | .planLaunch => true
  | .doorbell _ _ => true
  | .descriptorFetch _ res wait => res.wf && wait.wf
  | .nop _ index => fits 32 index
  | .signal _ index => fits 32 index
  | .regRead _ index => fits 32 index
  | .regWrite _ index res => fits 32 index && res.wf
  | .bulkLoad _ index res => fits 32 index && res.wf
  | .recorderRead _ index => fits 32 index
  | .routeWrite _ index res => fits 32 index && res.wf
  | .routeRead _ index => fits 32 index
  | .fenceSet _ index res => fits 32 index && res.wf
  | .bcast _ index => fits 32 index
  | .fwMsg _ index res => fits 32 index && res.wf
  | .descriptorComplete _ index _ => fits 32 index
  | .waitPoll _ res => res.wf
  | .waitExpired _ => true
  | .ringResume _ _ _ => true
  | .regTimeout _ => true
  | .regFrame h gdid id op nwords addr data => h.wf && fits 32 gdid && fits 16 id && fits 8 op && fits 8 nwords && fits 32 addr && decide (data.length ≤ 64)
  | .regFrameResponse h id status nwords data => h.wf && fits 16 id && fits 8 status && fits 8 nwords && decide (data.length ≤ 64)
  | .forwardedRecord h gdid kind _ => h.wf && fits 32 gdid && fits 8 kind
  | .ethLinkDown _ cause _ _ => fits 8 cause
  | .ethRetrain _ => true
  | .prpSupervision => true
  | .prpLanDown _ => true
  | .ptpMessage _ _ => true
  | .ptpSyncMissed => true
  | .ptpHoldTimeout => true
  | .ptpArmRestep => true
  | .ptpDisarm => true
  | .readAll _ => true
  | .readOne _ _ => true
  | .identTargetDone _ _ => true
  | .topologyCheck _ => true
  | .boardRecordDone _ _ => true
  | .partRecordRead item _ => fits 8 item
  | .suppliesValid _ _ _ => true
  | .hardwareReady => true
  | .supplyRange _ v => fits 16 v
  | .aggPowerLoss => true
  | .resetNAssert => true
  | .resetNRise _ _ _ => true
  | .ref156Loss => true
  | .ref156Return => true
  | .thermWarn _ => true
  | .thermalTrip => true
  | .dramRetrain => true
  | .dramTrainingDone _ => true
  | .tapInc _ _ incs => decide (incs.length = 16)
  | .hpSample _ _ => true
  | .crcErr _ _ _ => true
  | .ethLinkUp _ => true
  | .pcieLinkUp speed width _ _ => decide (1 ≤ speed ∧ speed ≤ 6) && (width == 1 || width == 2 || width == 4)
  | .supplyWithinRange _ v => fits 16 v
  | .tempDerate chan _ mr4 => fits 8 chan && fits 8 mr4
  | .bar2Write addr _ => fits 48 addr

end Sys2Proof
end

