-- ==== Sys2Proof/Tests/Slice0.lean ====
section
/-! SUPPORT. Tests: what the well-formedness check refuses, one value from the manual per shared computation, and for every
statement with hypotheses a state and operands that meet them, clause by clause. -/

namespace Sys2Proof.Tests

open Sys2Proof Sys2Proof.Machine

/-! ### Well-formedness -/

theorem test_wf_refuses_wide_number : (Instr.deadlineMiss .agg 0 256 0).wf = false := by decide
theorem test_wf_refuses_odd_address : (Instr.registerWrite .agg 0x000042 0).wf = false := by decide
theorem test_wf_refuses_ecc : (Instr.indDataRead .agg 4 .near (.ce 0)).wf = false := by decide
theorem test_wf_refuses_event : BoreEvent.wf { typ := 256 } = false := by decide
theorem test_wf_refuses_copies : copiesWf [none, none, none, none] = false := by decide
theorem test_wf_refuses_cell : CellHdr.wf { queue := 256, cseq := 0, len := 0 } = false := by decide
theorem test_wf_refuses_frame : EthHdr.wf { port := 0, src := 2 ^ 48 } = false := by decide
theorem test_wf_refuses_bcast : Bcast.wf { id := 0, op := 5, decideAt := 0, body := { typ := 6 } } = false := by decide
theorem test_wf_refuses_monitor : MonSample.wf { m := 32, live := 0, selfNs := 0, replica := 0 } = false := by decide
theorem test_wf_refuses_ties : Ties.wf { engAbsent := [(640, true)] } = false := by decide
theorem test_wf_refuses_host_read : HostRead.wf (.fault 0) = false := by decide
theorem test_wf_refuses_data : (Instr.regResp 0 { queue := 0, cseq := 0, len := 0 } 1 0 0 (List.replicate 65 0)).wf = false := by
  decide
theorem test_wf_refuses_increments : (Instr.tapInc 0 0 []).wf = false := by decide
theorem test_wf_accepts : (Instr.registerWrite (.die 0) 0x00104C 1).wf = true := by decide

/-! ### Values the manual gives -/

/-- R87, R401: the IDENT deadline is 100,000,000 ns at reset. -/
theorem test_deadline_ident : (resetHdr false 0x41).deadline = 100000000 := by decide
/-- R439: VDD_CORE runs from 0.65 V to 0.85 V and keeps state above 0.60 V, in 1/8 mV. -/
theorem test_supply_core : supplyRange 0 = (5200, 6800, 4800) := by decide
/-- R10: a counter one below its bound saturates, and stays. -/
theorem test_counter_saturates :
    ((Counter.add { sum := 0xFFFFFFFFFFFE } 1).add 7).sum = 0xFFFFFFFFFFFF := by decide
/-- R10: the SAT flag is set there. -/
theorem test_counter_sat : (Counter.add { sum := 0xFFFFFFFFFFFE } 1).sat = true := by decide
/-- R449: a change of the refresh rate is recorded in STAT.DERATE. -/
theorem test_derate : (Agg.tempDerate { phase := .ready, part := { isAgg := true } } 3 1 5).part.fld 0x20044 9 2 = 1 := by
  decide
/-- R336: a heartbeat with another generation is counted in STALE_GEN_COUNT. -/
theorem test_heartbeat_stale :
    (Agg.heartbeat { phase := .ready, part := { isAgg := true } } 0x00050000).part.num 0x20AC = 1 := by decide
/-- R41: ENABLE takes an OFF page to ENABLING. -/
theorem test_enable : ((({ isAgg := false } : Part).enableInput 8 1).2).pstate 8 = .enabling := by decide
/-- R41: DRAIN leaves FAULTED. -/
theorem test_drain_faulted :
    ((({ isAgg := false } : Part).modHdr 8 fun h => { h with state := .faulted }).drainInput 8).2.pstate 8 = .draining := by
  decide
/-- R6, R38: a write of a W1C bit clears only the bits written 1. -/
theorem test_write_one_to_clear :
    ((({ isAgg := false } : Part).modHdr 8 fun h => { h with errStat := 0x6 }).clearErr 8 2 |>.hdr 8).errStat = 4 := by decide

/-- R52: the CRC-32 over the bytes "123456789" is 0xCBF4_3926. -/
theorem test_crc : crc32 [0x31, 0x32, 0x33, 0x34, 0x35, 0x36, 0x37, 0x38, 0x39] = 0xCBF43926 := by decide +kernel
/-- R36, example: tap 1,937 stands at 0x000F_9100, engine 428 at 0x0002_65C0, barrier context 200 at 0x0000_7140. -/
theorem test_slots : tapBase 1937 = 0xF9100 ∧ engAddr 428 = 0x265C0 ∧ ctxAddr 200 = 0x7140 := by decide
/-- R61, example: a LOCKED die with a measurement of 37,412.3 ns goes to HOLDOVER, and refuses it. -/
theorem test_master_change :
    (Disc.measure { state := .locked } (Die.reset 0 {}).discCfg 2451852492 0).1.state = .holdover ∧
      (Disc.measure { state := .locked } (Die.reset 0 {}).discCfg 2451852492 0).2.refused = true := by decide
/-- R269, example: a word repeated nine times is four literals and one long match of 32 bytes at offset 4. -/
theorem test_compression :
    (encodeBlock [0x20, 0x4E, 0, 0, 0x20, 0x4E, 0, 0, 0x20, 0x4E, 0, 0, 0x20, 0x4E, 0, 0, 0x20, 0x4E, 0, 0, 0x20, 0x4E, 0, 0,
      0x20, 0x4E, 0, 0, 0x20, 0x4E, 0, 0, 0x20, 0x4E, 0, 0]).drop 12 = [0x03, 0x20, 0x4E, 0, 0, 0xF0, 0x03, 0x15] := by
  decide +kernel
/-- R294: the bins of 0, 1, 128, 129 and 2^31, and the representative of the bin of 512 (twice, so that a half shows). -/
theorem test_bins : binOf 0 = 0 ∧ binOf 1 = 1 ∧ binOf 128 = 897 ∧ binOf 129 = 898 ∧ binOf 2147483648 = 4095 ∧
    binRep2 (binOf 512) = 1028 := by decide
/-- R246, example: the outcomes taken, not taken, taken are the byte 0x8D. -/
theorem test_branch : branchByte [true, false, true] = [0x8D] := by decide

/-! ### States that meet the hypotheses of the statements -/

/-- A die at reset that is ready. -/
def readyDie : Die := { Die.reset 0 {} with ready := true }

/-- A tray whose die 0 is `f` of a ready die. -/
def up (f : Die → Die) : State := { State.reset with dies := State.reset.dies.set 0 (f readyDie) }

/-- A tray whose aggregator is `f` of a ready aggregator. -/
def hot (f : Agg → Agg) : State := { State.reset with agg := f { State.reset.agg with phase := .ready } }

/-- A part with a page in a state. -/
def paged (page : Nat) (x : PState) (p : Part) : Part := p.modHdr page fun h => { h with state := x }

/-- A part with a page locked. -/
def locked (page : Nat) (p : Part) : Part := p.modHdr page fun h => { h with lock := true }

theorem witness_step : ∃ (s : State) (c : Instr) (cs : List Instr), s.pending = c :: cs :=
  ⟨{ State.reset with pending := [.exchangeStart] }, _, _, rfl⟩

theorem witness_idle :
    (∃ (s : State) (l : Lane), s.pending = [] ∧ (s.die l).powered = true) ∧
    (∃ (s : State) (l : Lane), s.pending = [] ∧ (s.die l).powered = false) :=
  ⟨⟨up id, 0, rfl, rfl⟩, ⟨up fun d => { d with powered := false }, 0, rfl, rfl⟩⟩

theorem witness_one_part :
    (∃ (c : Instr) (s t : State) (l : Lane), exec c s = .next t ∧ partOf c = .die l) ∧
    (∃ (c : Instr) (s t : State), exec c s = .next t ∧ partOf c = .agg) :=
  ⟨⟨.refReturn 0, up id, _, 0, rfl, rfl⟩, ⟨.exchangeStart, hot id, _, rfl, rfl⟩⟩

theorem witness_no_power : ∃ (c : Instr) (s : State) (l : Lane), partOf c = .die l ∧ isSupply c = false ∧
    (s.die l).powered = false :=
  ⟨.refReturn 0, up fun d => { d with powered := false }, 0, rfl, rfl, rfl⟩

theorem witness_not_ready : ∃ (c : Instr) (s : State), partOf c = .agg ∧ isChip c = false ∧ s.agg.phase ≠ .ready :=
  ⟨.exchangeStart, State.reset, rfl, rfl, by decide⟩

theorem witness_reset_word : ∃ a : Nat, a ≠ 0x40 := ⟨0, by decide⟩

theorem witness_memory : ∃ (m : Mem) (a i k : Nat) (b : Byte) (bs : List Byte), Mem.wf m = true ∧ bs[i]? = some b ∧
    (k < a ∨ a + bs.length ≤ k) :=
  ⟨[(0, 1), (7, 2)], 7, 1, 9, 4, [3, 4], by decide, rfl, by decide⟩

theorem witness_registers : ∃ (p : Part) (a b : Nat), swf (resetWord p.isAgg) p.regs = true ∧ b ≠ a :=
  ⟨{ isAgg := false, regs := [(0x2044, 5)] }, 0x40, 0x44, by decide, by decide⟩

theorem witness_die_pages : ∃ (s : State) (l : Lane) (page : Fin 4096), (s.die l).Up ∧ (dieClass page).isSome = true :=
  ⟨up id, 0, 0x18, ⟨rfl, rfl⟩, rfl⟩

theorem witness_agg_pages : ∃ (s : State) (page : Fin 4096), s.agg.phase = .ready ∧ (aggClass page).isSome = true :=
  ⟨hot id, 8, rfl, rfl⟩

theorem witness_drain_bound :
    (∃ (s : State) (l : Lane) (page : Fin 4096), (s.die l).Up ∧ (s.die l).part.pstate page = .draining ∧
      (s.die l).part.isAgg = false) ∧
    (∃ (s : State) (page : Fin 4096), s.agg.phase = .ready ∧ s.agg.part.pstate page = .draining ∧ s.agg.part.isAgg = true) :=
  ⟨⟨up fun d => d.onPart (paged 9 .draining), 0, 9, ⟨rfl, rfl⟩, by decide, rfl⟩,
    ⟨hot fun g => g.onPart (paged 1 .draining), 1, rfl, by decide, rfl⟩⟩

theorem witness_unassigned :
    (∃ (s : State) (l : Lane) (addr : BitVec 24), (s.die l).Up ∧
      assigned false (addr.toNat / 0x1000) (addr.toNat % 0x1000 / 4 * 4) = false) ∧
    (∃ (s : State) (addr : BitVec 24), s.agg.phase = .ready ∧
      assigned true (addr.toNat / 0x1000) (addr.toNat % 0x1000 / 4 * 4) = false) :=
  ⟨⟨up id, 0, 0xFFF000, ⟨rfl, rfl⟩, by decide⟩, ⟨hot id, 0xFFF000, rfl, by decide⟩⟩

/-- The rows of JUMP_LIMIT_NS and TEMP_WARN. -/
def jumpSpec : RegSpec × Nat := (specOf false 1 0x68).get rfl
@[inherit_doc jumpSpec] def warnSpec : RegSpec × Nat := (specOf true 0 0x68).get rfl

theorem jump_no_port (port : Nat) (h : indPort 1 = some port) : False := by cases h
theorem warn_no_port (port : Nat) (h : aggPort 0 = some port) : False := by cases h

theorem witness_register_write :
    (∃ (s : State) (l : Lane) (addr : BitVec 24) (r : RegSpec) (i : Nat), (s.die l).Up ∧ addr.toNat % 4 = 0 ∧
      0x40 ≤ addr.toNat % 0x1000 ∧ specOf false (addr.toNat / 0x1000) (addr.toNat % 0x1000) = some (r, i) ∧
      ∀ port : Nat, indPort (addr.toNat / 0x1000) = some port →
        addr.toNat ≠ port ∧ addr.toNat ≠ port + 4 ∧ addr.toNat ≠ port + 8) ∧
    (∃ (s : State) (l : Lane) (addr : BitVec 24), (s.die l).Up ∧ addr.toNat % 4 = 0 ∧ addr.toNat % 0x1000 < 0x40 ∧
      addr.toNat % 0x1000 ≠ 4 ∧ (dieClass (addr.toNat / 0x1000)).isSome = true) ∧
    (∃ (s : State) (l : Lane) (addr : BitVec 24) (port : Nat), (s.die l).Up ∧ addr.toNat % 4 = 0 ∧
      indPort (addr.toNat / 0x1000) = some port ∧ (addr.toNat = port ∨ addr.toNat = port + 8)) :=
  ⟨⟨up id, 0, 0x001068, jumpSpec.1, jumpSpec.2, ⟨rfl, rfl⟩, by decide, by decide, rfl,
      fun port h => (jump_no_port port h).elim⟩,
    ⟨up id, 0, 0x00803C, ⟨rfl, rfl⟩, by decide, by decide, by decide, by decide⟩,
    ⟨up id, 0, 0x0090A8, 0x90A0, ⟨rfl, rfl⟩, by decide, rfl, by decide⟩⟩

theorem witness_bar_write :
    (∃ (s : State) (addr : BitVec 24) (r : RegSpec) (i : Nat), s.agg.phase = .ready ∧ addr.toNat % 4 = 0 ∧
      0x40 ≤ addr.toNat % 0x1000 ∧ specOf true (addr.toNat / 0x1000) (addr.toNat % 0x1000) = some (r, i) ∧
      ∀ port : Nat, aggPort (addr.toNat / 0x1000) = some port →
        addr.toNat ≠ port ∧ addr.toNat ≠ port + 4 ∧ addr.toNat ≠ port + 8) ∧
    (∃ (s : State) (addr : BitVec 24), s.agg.phase = .ready ∧ addr.toNat % 4 = 0 ∧ addr.toNat % 0x1000 < 0x40 ∧
      addr.toNat % 0x1000 ≠ 4 ∧ (aggClass (addr.toNat / 0x1000)).isSome = true) ∧
    (∃ (s : State) (addr : BitVec 24) (port : Nat), s.agg.phase = .ready ∧ addr.toNat % 4 = 0 ∧
      aggPort (addr.toNat / 0x1000) = some port ∧ (addr.toNat = port ∨ addr.toNat = port + 8)) :=
  ⟨⟨hot id, 0x000068, warnSpec.1, warnSpec.2, rfl, by decide, by decide, rfl, fun port h => (warn_no_port port h).elim⟩,
    ⟨hot id, 0x00103C, rfl, by decide, by decide, by decide, by decide⟩,
    ⟨hot id, BitVec.ofNat 24 ((aggPort 3).getD 0), (aggPort 3).getD 0, rfl, by decide, by decide, by decide⟩⟩

theorem witness_wide_reads :
    (∃ (s : State) (l : Lane) (addr : BitVec 24), (s.die l).Up ∧ (s.die l).part.isAgg = false ∧
      assigned false (addr.toNat / 0x1000) (addr.toNat / 4 * 4 % 0x1000) = true ∧
      indPort (addr.toNat / 0x1000) ≠ some (addr.toNat / 4 * 4 - 4)) ∧
    (∃ (s : State) (addr : BitVec 24), s.agg.phase = .ready ∧ s.agg.part.isAgg = true ∧
      assigned true (addr.toNat / 0x1000) (addr.toNat / 4 * 4 % 0x1000) = true ∧
      aggPort (addr.toNat / 0x1000) ≠ some (addr.toNat / 4 * 4 - 4)) :=
  ⟨⟨up id, 0, 0x001044, ⟨rfl, rfl⟩, rfl, by decide, by decide⟩, ⟨hot id, 0x000044, rfl, rfl, by decide, by decide⟩⟩

theorem witness_outputs : ∃ s t : State, OutputsShown s ∧ step s = .next t :=
  ⟨{ State.reset with pending := [.exchangeStart] }, _, ⟨by unfold IrqShown; decide, by unfold FaultShown; decide⟩, rfl⟩

theorem witness_power :
    (∃ (s : State) (l : Lane), (s.die l).powered = true) ∧
    (∃ (s : State) (l : Lane) (page : Fin 4096), (s.die l).powered = true ∧ (s.die l).ready = false ∧
      (indPort page).isSome = true) :=
  ⟨⟨up id, 0, rfl⟩, ⟨up fun d => { d with ready := false }, 0, 0x40, rfl, rfl, by decide⟩⟩

theorem witness_counters :
    (∃ (c : Counter) (n : Nat), c.sat = false ∧ 0xFFFFFFFFFFFF ≤ c.sum + n) ∧ (∃ c : Counter, c.sat = true) ∧
    (∃ (c : Counter) (n : Nat), c.sat = false ∧ c.sum + n < 0xFFFFFFFFFFFF) ∧ (∃ (c : Counter) (n : Nat), (c.add n).sat = true) :=
  ⟨⟨{ sum := 0xFFFFFFFFFFFE }, 1, rfl, by decide⟩, ⟨{ sum := 0xFFFFFFFFFFFF, sat := true }, rfl⟩,
    ⟨{ sum := 0xFFFFFFFFFFFD }, 1, rfl, by decide⟩, ⟨{ sum := 0xFFFFFFFFFFFE }, 1, by decide⟩⟩

theorem witness_trim : ∃ x : Disc, x.trim.natAbs ≤ 0x29F16B ∧ x.integ.natAbs ≤ 0x29F16B ∧ ∀ t ∈ x.trims, t.natAbs ≤ 0x29F16B :=
  ⟨{ trim := 0x29F16B, trims := [-0x29F16B] }, by decide, by decide, by decide⟩

theorem witness_steps :
    (∃ (x : Disc) (c : DiscCfg) (o : Int), x.state ≠ .free ∧ x.armed = false ∧ c.jump * 65536 < o.natAbs) ∧
    (∃ (x : Disc) (c : DiscCfg) (o : Int) (now : Nat), (x.measure c o now).1.state = .locked ∧ x.state ≠ .locked) ∧
    (∃ (x : Disc) (c : DiscCfg) (o : Int) (now : Nat), x.unsynced = true ∧ (x.measure c o now).1.unsynced = false) :=
  ⟨⟨{ state := .locked }, State.reset.agg.discCfg, 0x100000000, by decide, rfl, by decide⟩,
    ⟨{ state := .locking, lockRun := 7 }, State.reset.agg.discCfg, 0, 0, by decide, by decide⟩,
    ⟨{ state := .locking, lockRun := 7, unsynced := true }, State.reset.agg.discCfg, 0, 0, rfl, by decide⟩⟩

theorem witness_swf : ∃ (s : State) (l : Lane), (s.die l).Up ∧ swf (resetWord (s.die l).part.isAgg) (s.die l).part.regs = true :=
  ⟨up id, 0, ⟨rfl, rfl⟩, by decide⟩

theorem witness_up_and_ready : (∃ (s : State) (l : Lane), (s.die l).Up) ∧ (∃ s : State, s.agg.phase = .ready) :=
  ⟨⟨up id, 0, rfl, rfl⟩, ⟨hot id, rfl⟩⟩

theorem witness_gdid :
    (∃ (d : Die) (g : Nat), swf (resetWord d.part.isAgg) d.part.regs = true ∧ d.glob.gdidNext = some g ∧ g < 4294967296) ∧
    (∃ d : Die, d.glob.gdidNext = none) :=
  ⟨⟨readyDie.onGlob fun g => { g with gdidNext := some 7 }, 7, by decide, rfl, by decide⟩, ⟨readyDie, rfl⟩⟩

/-- The rows of SPRING_CTL and OXBOW_CTL. -/
def springSpec : RegSpec × Nat := (specOf false 0x40 0x40).get rfl
@[inherit_doc springSpec] def gateSpec : RegSpec × Nat := (specOf false 8 0x40).get rfl

theorem spec_get {x : Option (RegSpec × Nat)} (h : x.isSome = true) : x = some ((x.get h).1, (x.get h).2) := by simp
theorem eng_row : (specOf false (engAddr (639 : Fin 640).val / 0x1000) (engAddr (639 : Fin 640).val % 0x1000)).isSome = true := by
  decide
theorem comp_row : (specOf false (0x100 + (63 : Fin 64).val) (0x80 : BitVec 12).toNat).isSome = true := by decide

theorem witness_springs :
    (∃ (d : Die) (c : Nat), d.countCtx.counts (c / 16) = false) ∧
    (∃ (d : Die) (c : Nat), d.countCtx.counts (c / 16) = true ∧
      (((sget {} d.spring.counters c).add 0).sat = false ∨ (sget {} d.spring.counters c).sat = true)) ∧
    (∃ (s : State) (l : Lane) (addr : BitVec 24) (r : RegSpec) (i : Nat), (s.die l).Up ∧
      addr.toNat % 4 = 0 ∧ addr.toNat / 0x1000 = 0x40 ∧ 0x40 ≤ addr.toNat % 0x1000 ∧
      addr.toNat ∉ [0x400C0, 0x400C4, 0x400C8] ∧ specOf false 0x40 (addr.toNat % 0x1000) = some (r, i)) :=
  ⟨⟨readyDie, 0, by decide⟩,
    ⟨readyDie.onPart fun p => paged 0x40 .active ((paged (tapPage 0) .active p).setBit (tapBase 0) 0 true), 0, by decide,
      by decide⟩,
    ⟨up id, 0, 0x040040, springSpec.1, springSpec.2, ⟨rfl, rfl⟩, by decide, by decide, by decide, by decide, rfl⟩⟩

/-- The smallest record. -/
def small : Rec := { kind := .snapshot, bytes := [0] }

theorem witness_markers :
    (∃ d : Die, d.spring.stepStore = [] ∧ d.spring.retention = []) ∧
    (∃ (d : Die) (r q : Rec) (rs qs : List Rec), d.spring.stepStore = r :: rs ∧ d.spring.retention = q :: qs) :=
  ⟨⟨readyDie, rfl, rfl⟩,
    ⟨readyDie.onSpring fun s => { s with stepStore := [small], retention := [small] }, small, small, [], [], rfl, rfl⟩⟩

theorem witness_rows :
    (∃ (s : State) (l : Lane) (e : Fin 640) (r : RegSpec) (i : Nat), (s.die l).Up ∧
      specOf false (engAddr e / 0x1000) (engAddr e % 0x1000) = some (r, i)) ∧
    (∃ (s : State) (l : Lane) (r : RegSpec) (i : Nat), (s.die l).Up ∧ specOf false 8 0x40 = some (r, i)) ∧
    (∃ (s : State) (l : Lane) (core : Fin 64) (off : BitVec 12) (r : RegSpec) (i j : Nat), (s.die l).Up ∧
      off.toNat % 4 = 0 ∧ compIndex off.toNat = some j ∧ specOf false (0x100 + core) off.toNat = some (r, i)) :=
  ⟨⟨up id, 0, 639, _, _, ⟨rfl, rfl⟩, spec_get eng_row⟩, ⟨up id, 0, gateSpec.1, gateSpec.2, ⟨rfl, rfl⟩, rfl⟩,
    ⟨up id, 0, 63, 0x80, _, _, 0, ⟨rfl, rfl⟩, by decide, by decide, spec_get comp_row⟩⟩

theorem witness_staging : ∃ (s : State) (off : Nat), s.agg.phase = .ready ∧ off < 0x4000000 := ⟨hot id, 0x3FFFFFF, rfl, by decide⟩

theorem witness_limits :
    (∃ (s : State) (addr : BitVec 24), s.agg.phase = .ready ∧ addr.toNat % 4 = 0 ∧
      (0x3100 ≤ addr.toNat ∧ addr.toNat < 0x3700 ∨ addr.toNat ∈ [0x304C, 0x3054, 0x306C, 0x3070])) ∧
    (∃ (s : State) (addr : BitVec 24), s.agg.phase = .ready ∧ addr.toNat % 4 = 0 ∧ addr.toNat = 0x36FC) :=
  ⟨⟨hot id, 0x003070, rfl, by decide, by decide⟩, ⟨hot id, 0x0036FC, rfl, by decide, by decide⟩⟩

theorem witness_chip : ∃ s : State, s.agg.phase ≠ .off := ⟨State.reset, by decide⟩

end Sys2Proof.Tests
end

section
/-! PROOFS. Saturating counters (R10): what one addition comes to in each case, and O24. -/

namespace Sys2Proof.Machine

open Sys2Proof

/-- A counter with SAT set counts nothing (R10). -/
theorem Counter.add_of_sat (c : Counter) (n : Nat) (h : c.sat = true) : c.add n = c := by simp [Counter.add, h]

/-- A counter that reaches the limit of 48 bits stops there (R10). -/
theorem Counter.add_of_reached (c : Counter) (n : Nat) (h : c.sat = false) (hn : 0xFFFFFFFFFFFF ≤ c.sum + n) :
    c.add n = { c with sum := 0xFFFFFFFFFFFF, sat := true, residue := 0 } := by simp [Counter.add, h, hn]

/-- Below the limit a counter advances by what it counts. -/
theorem Counter.add_of_below (c : Counter) (n : Nat) (h : c.sat = false) (hn : c.sum + n < 0xFFFFFFFFFFFF) :
    c.add n = { c with sum := c.sum + n, residue := (c.residue + n % 3) % 3 } := by
  simp [Counter.add, h, Nat.not_le.mpr hn]

/-- Settles O24: the three cases of an addition, the last clause being the first case applied to the counter it left. -/
theorem saturatingCountersStop : Obligations.SaturatingCountersStop := by
  unfold Obligations.SaturatingCountersStop
  intro c n m
  refine ⟨fun h hn => ?reached, c.add_of_sat n, fun h hn => ?below, (c.add n).add_of_sat m⟩
  case reached =>
    rw [c.add_of_reached n h hn]
    exact ⟨rfl, rfl, hn⟩
  case below =>
    rw [c.add_of_below n h hn]
    exact ⟨rfl, h⟩

end Sys2Proof.Machine
end

section
/-! PROOFS. Register writes of a die (O18) and of BAR0 (O19): how a write finds its word, then the three kinds of word: of a
row, of the common header, and of an indirect port. -/

namespace Sys2Proof.Machine

open Sys2Proof

/-! ### How a write finds its word -/

section Address

variable {a page : Nat} {isAgg : Bool}

/-- An assigned word's page has a class, and an aligned address is that of the word. -/
theorem word_access (h4 : a % 4 = 0) (hs : assigned isAgg (a / 0x1000) (a % 0x1000) = true) :
    (pageClass isAgg (a / 0x1000)).isNone = false ∧ a % 0x1000 / 4 * 4 = a % 0x1000 ∧
      a / 0x1000 * 0x1000 + a % 0x1000 = a := by
  simp only [assigned, Bool.and_eq_true] at hs
  exact ⟨by rw [← Option.not_isSome, hs.1]; rfl, by omega, Nat.div_add_mod' a 0x1000⟩

/-- A page with a row for some offset has a class. -/
theorem pageClass_of_row {off : Nat} {x : RegSpec × Nat} (h : specOf isAgg page off = some x) :
    (pageClass isAgg page).isSome = true := by
  unfold specOf at h
  cases hc : pageClass isAgg page with
  | none => simp [hc] at h
  | some c => rfl

/-- A row's word outside the indirect port of its page is one that `Die.regWrite` hands to `Die.blockWrite`. -/
theorem dieBlockAddr_of_row {x : RegSpec × Nat} (h4 : a % 4 = 0) (h40 : 0x40 ≤ a % 0x1000)
    (hs : specOf false (a / 0x1000) (a % 0x1000) = some x)
    (hp : ∀ port : Nat, indPort (a / 0x1000) = some port → a ≠ port ∧ a ≠ port + 4 ∧ a ≠ port + 8) :
    dieBlockAddr a = true := by
  have hc : (dieClass (a / 0x1000)).isSome = true := pageClass_of_row hs
  unfold dieBlockAddr
  cases h : indPort (a / 0x1000) with
  | none => simp [h4, h40, hc]
  | some port => simp [h4, h40, hc, hp port h]

/-- The same for `Agg.barWrite` and `Agg.blockWrite`. -/
theorem aggBlockAddr_of_row {x : RegSpec × Nat} (h4 : a % 4 = 0) (h40 : 0x40 ≤ a % 0x1000)
    (hs : specOf true (a / 0x1000) (a % 0x1000) = some x)
    (hp : ∀ port : Nat, aggPort (a / 0x1000) = some port → a ≠ port ∧ a ≠ port + 4 ∧ a ≠ port + 8) :
    aggBlockAddr a = true := by
  have hc : (aggClass (a / 0x1000)).isSome = true := pageClass_of_row hs
  unfold aggBlockAddr
  cases h : aggPort (a / 0x1000) with
  | none => simp [h4, h40, hc]
  | some port => simp [h4, h40, hc, hp port h]

/-- IND_ADDR and IND_CTL of every die port are assigned words of its page, behind the common header (R49). -/
theorem assigned_of_indPort {port : Nat} (h : indPort page = some port) (ha : a = port ∨ a = port + 8) :
    0x40 ≤ a % 0x1000 ∧ a % 4 = 0 ∧ assigned false page (a % 0x1000) = true := by
  unfold indPort at h
  repeat' split at h
  all_goals cases h
  all_goals subst page; rcases ha with rfl | rfl <;> decide

/-- IND_ADDR and IND_CTL of every port of BAR0 are assigned words of its page, behind the common header (R49). -/
theorem assigned_of_aggPort {port : Nat} (h : aggPort page = some port) (ha : a = port ∨ a = port + 8) :
    0x40 ≤ a % 0x1000 ∧ a % 4 = 0 ∧ assigned true page (a % 0x1000) = true := by
  unfold aggPort at h
  repeat' split at h
  all_goals cases h
  all_goals subst page; rcases ha with rfl | rfl <;> decide

end Address

/-! ### Words of the common header -/

/-- A write of the header word at `a`, other than PAGE_CTL, word by word (R37, R38, R46, R47, R87). -/
theorem Part.hdrWrite_at (p : Part) (page off a : Nat) (w : W32) (ha : page * 0x1000 + off = a) :
    p.hdrWrite page off w =
      let h := p.hdr page
      let refuse : Part := p.accessErr page a w true
      if off = 0xC then p.clearErr page w
      else if off = 0x10 then
        if w &&& 0xFFFF00FF = h.errMask then p else if h.lock then refuse
        else p.modHdr page fun h => { h with errMask := w &&& 0xFFFF00FF }
      else if off = 0x14 then
        if w.setWidth 8 = 0 then p else if h.lock then refuse
        else p.modHdr page fun h => { h with armed := h.armed ||| w.setWidth 8 }
      else if off = 0x1C then
        if w = h.deadline then p
        else if h.lock || !deadlineOk p.isAgg page w.toNat then refuse
        else p.modHdr page fun h => { h with deadline := w }
      else p := by
  subst ha
  rfl

/-- A die's write of a header word other than PAGE_CTL: a new deadline of EDDY ends the one kept (R87). -/
theorem Die.regWrite_hdrWord (d : Die) (a : Nat) (w : W32) (e : Ecc) (h4 : a % 4 = 0) (ho : a % 0x1000 < 0x40)
    (hn : a % 0x1000 ≠ 4) (hc : (dieClass (a / 0x1000)).isSome = true) :
    d.regWrite a w e = d.admitted a w fun d =>
      let e := d.onPart fun p => p.hdrWrite (a / 0x1000) (a % 0x1000) w
      if a = 0x1001C ∧ (e.part.hdr 0x10).deadline ≠ (d.part.hdr 0x10).deadline then
        { e with eddy := { e.eddy with oldDeadline := none } }
      else e := by
  have hs : assigned false (a / 0x1000) (a % 0x1000) = true := by simp [assigned, pageClass, hc, ho]
  obtain ⟨hnone, hoff, hat⟩ := word_access h4 hs
  simp only [Die.regWrite, Die.admitted, hoff, hat, show (dieClass (a / 0x1000)).isNone = false from hnone, hs, hn, ho,
    if_true, if_false, Bool.not_true, Bool.false_or, Bool.false_eq_true]

/-! ### Words of an indirect port -/

/-- A die's write of IND_ADDR or IND_CTL keeps the bits the port has (R49). -/
theorem Die.regWrite_port (d : Die) (a port : Nat) (w : W32) (e : Ecc) (hp : indPort (a / 0x1000) = some port)
    (ha : a = port ∨ a = port + 8) :
    d.regWrite a w e = d.admitted a w fun d => d.onPart fun p =>
      (p.wr a (w &&& if a = port then 0xFFFFFFFC else 0x0000FF01)).indMoved (a / 0x1000) port := by
  obtain ⟨h40, h4, hs⟩ := assigned_of_indPort hp ha
  obtain ⟨hnone, hoff, hat⟩ := word_access h4 hs
  have hn4 : ¬ a % 0x1000 = 4 := by omega
  have hn40 : ¬ a % 0x1000 < 0x40 := by omega
  simp only [Die.regWrite, Die.admitted, hoff, hat, show (dieClass (a / 0x1000)).isNone = false from hnone, hs, hn4, hn40,
    hp, if_false, Bool.not_true, Bool.false_or, Bool.false_eq_true]
  by_cases h : a = port
  · simp only [h, if_true]
  · have h8 : a = port + 8 := ha.resolve_left h
    have hn : ¬ a = port + 4 := by omega
    simp only [if_neg h, if_neg hn, if_pos h8]

/-- The same for BAR0. -/
theorem Agg.barWrite_port (g : Agg) (a port : Nat) (w : W32) (e : Ecc) (hp : aggPort (a / 0x1000) = some port)
    (ha : a = port ∨ a = port + 8) :
    g.barWrite a w e = g.admitted a w fun g => g.onPart fun p =>
      (p.wr a (w &&& if a = port then 0xFFFFFFFC else 0x0000FF01)).indMoved (a / 0x1000) port := by
  obtain ⟨h40, h4, hs⟩ := assigned_of_aggPort hp ha
  obtain ⟨hnone, hoff, hat⟩ := word_access h4 hs
  have hn4 : ¬ a % 0x1000 = 4 := by omega
  have hn40 : ¬ a % 0x1000 < 0x40 := by omega
  simp only [Agg.barWrite, Agg.admitted, hoff, hat, show (aggClass (a / 0x1000)).isNone = false from hnone, hs, hn4, hn40,
    hp, if_false, Bool.not_true, Bool.false_or, Bool.false_eq_true]
  by_cases h : a = port
  · simp only [h, if_true]
  · have h8 : a = port + 8 := ha.resolve_left h
    have hn : ¬ a = port + 4 := by omega
    simp only [if_neg h, if_neg hn, if_pos h8]

/-! ### The statements -/

/-- Command bits that exclude each other: ARM_RESTEP with DISARM (R78), DISPUTE_SET with DISPUTE_CLR (R213). -/
theorem Die.cmdConflict_iff (a : Nat) (w : W32) :
    Die.cmdConflict a w = true ↔
      (a = 0x104C ∧ wbit w 1 = true ∧ wbit w 2 = true) ∨ (a = 0x8040 ∧ wbit w 3 = true ∧ wbit w 4 = true) := by
  simp [Die.cmdConflict, and_assoc]

/-- The pages of command rings (R33). -/
theorem cmdPage_isSome (page : Nat) : (cmdPage page).isSome = true ↔ 0x40 ≤ page ∧ page < 0x80 := by
  simp [cmdPage]

/-- REGISTER_WRITE on a die that is up comes to `Die.regWrite`. -/
theorem dieDoes_registerWrite (s : State) (l : Lane) (addr : BitVec 24) (w : W32) (f : Die → Die) (hu : (s.die l).Up)
    (h : ∀ d : Die, d.regWrite addr.toNat w .ok = f d) : DieDoes s (.registerWrite (.die l) addr w) l f :=
  dieDoes_of_powered s l (fun d => d.writePort addr.toNat w .ok) f rfl hu
    (((s.die l).begin_.writePort_ready hu.2 addr.toNat w .ok).trans (h (s.die l).begin_))

/-- Settles O18, by the kind of the word: a row's word is a block write, a header word and a port's word have a rule each. -/
theorem registerWritesStoreTheirFields : Obligations.RegisterWritesStoreTheirFields := by
  unfold Obligations.RegisterWritesStoreTheirFields
  intro s l addr w hu h4 a page
  refine ⟨fun r i h40 hs hp => dieDoes_registerWrite s l addr w _ hu fun d => ?row,
    fun ho hn hc => dieDoes_registerWrite s l addr w _ hu fun d => ?header,
    fun port hp ha => dieDoes_registerWrite s l addr w _ hu fun d => d.regWrite_port a port w .ok hp ha⟩
  case row =>
    refine (d.regWrite_block a w .ok (by rw [hs]; rfl) (dieBlockAddr_of_row h4 h40 hs hp)).trans (d.admitted_congr a w ?_)
    simp only [Die.blockWrite, show specOf false (a / 0x1000) (a % 0x1000) = some (r, i) from hs, Die.cmdConflict_iff]
    rfl
  case header =>
    refine (d.regWrite_hdrWord a w .ok h4 ho hn hc).trans (d.admitted_congr a w ?_)
    simp only [fun p : Part => p.hdrWrite_at (a / 0x1000) (a % 0x1000) a w (Nat.div_add_mod' a 0x1000)]
    rfl

/-- Settles O19, by the kind of the word as O18. -/
theorem barWritesStoreTheirFields : Obligations.BarWritesStoreTheirFields := by
  unfold Obligations.BarWritesStoreTheirFields
  intro s addr w hu h4 a page off
  refine ⟨fun r i h40 hs hp => aggDoes_of_ready s rfl hu ?row, fun ho hn hc => aggDoes_of_ready s rfl hu ?header,
    fun port hp ha => aggDoes_of_ready s rfl hu (s.agg.begin_.barWrite_port a port w .ok hp ha)⟩ <;>
    generalize s.agg.begin_ = g
  case row =>
    refine (g.barWrite_block a w .ok (by rw [hs]; rfl) (aggBlockAddr_of_row h4 h40 hs hp)).trans (g.admitted_congr a w ?_)
    simp only [Agg.blockWrite, show specOf true (a / 0x1000) (a % 0x1000) = some (r, i) from hs, cmdPage_isSome]
    rfl
  case header =>
    have hat : hdrAddr page off = a := Nat.div_add_mod' a 0x1000
    have hw := g.barWrite_hdr page off ho (by omega) hc w .ok
    simp only [hat, if_neg hn] at hw
    refine hw.trans (g.admitted_congr a w ?_)
    exact congrArg g.onPart (funext fun p => p.hdrWrite_at page off a w hat)

end Sys2Proof.Machine
end

section
/-! PROOFS. The hardware descriptors (R366): a descriptor command acts where the effect has not begun, and O57. -/

namespace Sys2Proof.Machine

open Sys2Proof

/-- What the descriptor at an index of a ring does, where it is of an opcode and its effect has not begun; nothing where there
is none. -/
def Agg.begun (g : Agg) (i k op : Nat) (f : Desc → Agg → Agg) : Agg :=
  match g.desc i k with
  | none => g
  | some d => if d.phase = .fetched ∧ dget d.bytes 0 1 = op then f d g else g

/-- A meaning that acts on the descriptor `Agg.ready` gives acts on one whose effect has not begun. -/
theorem Agg.ready_match (g : Agg) (i k op : Nat) (f : Desc → Agg) (f' : Desc → Agg → Agg) (h : ∀ d, f d = f' d g) :
    (match g.ready i k op with
      | none => g
      | some d => f d) = g.begun i k op f' := by
  unfold Agg.ready Agg.begun
  cases g.desc i k with
  | none => rfl
  | some d =>
    by_cases hd : d.phase = .fetched ∧ dget d.bytes 0 1 = op
    · simp only [if_pos hd, h]
    · simp only [if_neg hd]

/-- Settles O57, opcode by opcode: each command acts through `Agg.ready`, and what it does there is compared with the
statement branch by branch; BULK_LOAD, which also carries on a load, finds its descriptor itself. -/
theorem descriptorsTakeTheirEffect : Obligations.DescriptorsTakeTheirEffect := by
  unfold Obligations.DescriptorsTakeTheirEffect
  intro s i k r hu begun request
  have off (b : Bool) : (!b) = true ↔ b = false := iff_of_eq (Bool.not_eq_true' b)
  have hrequest (d : Desc) (g : Agg) (op : Nat) (data : List W32) : g.regBegin i d op data = request d g op data :=
    if_congr (off _) rfl (if_congr Iff.rfl (if_congr (off _) rfl rfl) rfl)
  have does {c : Instr} {F : Agg → Agg} {op : Nat} {f : Desc → Agg → Agg} (hx : exec c s = s.aggReady F)
      (h : ∀ g, F g = g.begun i k op f) : AggDoes s c (begun op f) := aggDoes_of_ready s hx hu (h _)
  refine ⟨does rfl fun g => ?nop, does rfl fun g => ?signal, does rfl fun g => ?regRead, does rfl fun g => ?regWrite,
    aggDoes_of_ready s rfl hu ?bulkLoad, does rfl fun g => ?recorderRead, does rfl fun g => ?routeWrite,
    does rfl fun g => ?routeRead, does rfl fun g => ?fenceSet, does rfl fun g => ?bcast, does rfl fun g => ?fwMsg⟩
  case nop => exact g.ready_match i k 0 _ _ fun d => rfl
  case signal => exact g.ready_match i k 1 _ _ fun d => rfl
  case regRead => exact g.ready_match i k 2 _ _ fun d => hrequest d g 1 []
  case regWrite =>
    refine g.ready_match i k 3 _ _ fun d => if_congr Iff.rfl (hrequest d g 2 _) ?_
    cases g.hostGet d r with
    | none => rfl
    | some bs => exact hrequest d g 2 _
  case bulkLoad =>
    generalize s.agg.begin_ = g
    unfold Agg.bulkLoad
    cases g.desc i k with
    | none => rfl
    | some d =>
      refine if_congr Iff.rfl rfl ?_
      cases d.phase with
      | fetched => exact if_congr (off _) rfl (if_congr (off _) rfl (if_congr (off _) rfl rfl))
      | running => rfl
      | finished => rfl
  case recorderRead =>
    exact g.ready_match i k 5 _ _ fun d => if_congr (or_congr Iff.rfl (and_congr (off _) Iff.rfl)) rfl rfl
  case routeWrite => exact g.ready_match i k 6 _ _ fun d => if_congr (off _) rfl rfl
  case routeRead => exact g.ready_match i k 7 _ _ fun d => if_congr (off _) rfl rfl
  case fenceSet => exact g.ready_match i k 8 _ _ fun d => rfl
  case bcast => exact g.ready_match i k 9 _ _ fun d => if_congr (off _) rfl rfl
  case fwMsg => exact g.ready_match i k 10 _ _ fun d => if_congr (off _) rfl rfl

end Sys2Proof.Machine
end

section
/-! PROOFS. Commands and the parts of the tray (R30): what any command may change, and O4. -/

namespace Sys2Proof.Machine

open Sys2Proof

/-- What may differ from `s` in the answer to a command that goes to one part: the die of a lane, or the aggregator. -/
def ReachesOnly (s : State) (a : Answer) : PartId → Prop
  | .die l => ∃ f : Die → Die, a = .next (s.onDie l f)
  | .agg => ∃ f : Agg → Agg, a = .next (s.onAgg f)

/-- A command changes the part it goes to and nothing else: one whose operand names a part or a lane end, that part; every
other, the part of the entry it goes through. -/
theorem exec_reachesOnly (c : Instr) (s : State) : ReachesOnly s (exec c s) (partOf c) := by
  cases c
  case pageEnable part _ | pageDrain part _ | softClear part _ | pageLock part _ | enableDone part _ | drainDone part _
      | drainTimeout part _ | errStatClear part _ _ | errInjectArm part _ _ | registerWrite part _ _
      | unassignedAccess part _ _ | wideLowRead part _ _ | highWordRead part _ _ | indDataRead part _ _ _
      | indDataWrite part _ _ _ | deadlineMiss part _ _ _ | stageHang part _ _ _ =>
    cases part with
    | die l => exact ⟨_, rfl⟩
    | agg => exact ⟨_, rfl⟩
  case cellSend lane _ | gateCycleBoundary lane | gclEntryAdvance lane | gclSwitchArm lane | train lane _ _ _ _ _
      | trainSend lane | linkLock lane | linkLoss lane _ _ _ _ | trainTimeout lane | retrain lane | crcErr lane _ _ =>
    cases lane with
    | die l => exact ⟨_, rfl⟩
    | agg l => exact ⟨_, rfl⟩
  all_goals exact ⟨_, rfl⟩

/-- A change of the die of a lane keeps the rest of the tray. -/
theorem State.sameButDie_onDie (s : State) (l : Lane) (f : Die → Die) : SameButDie l s (s.onDie l f) :=
  ⟨fun k hk => s.onDie_other l k f hk, s.onDie_agg l f⟩

/-- A change of the aggregator keeps every die. -/
theorem State.sameDies_onAgg (s : State) (f : Agg → Agg) : SameDies s (s.onAgg f) := fun k => s.onAgg_die k f

/-- Settles O4: every command changes one part, and such a change keeps the others. -/
theorem commandsReachOnePart : Obligations.CommandsReachOnePart := by
  unfold Obligations.CommandsReachOnePart
  intro c s t ht
  have hc := exec_reachesOnly c s
  rw [ht] at hc
  cases hp : partOf c with
  | die l =>
    rw [hp] at hc
    obtain ⟨f, hf⟩ := hc
    cases hf
    exact s.sameButDie_onDie l f
  | agg =>
    rw [hp] at hc
    obtain ⟨f, hf⟩ := hc
    cases hf
    exact s.sameDies_onAgg f

end Sys2Proof.Machine
end

section
/-! PROOFS. Bore at the aggregator (R220–R229, R385): O42. -/

namespace Sys2Proof.Machine

open Sys2Proof

/-- Settles O42: each entry takes its copies, and then the event two of them agree on, guard by guard. -/
theorem boreAtTheAggregator : Obligations.BoreAtTheAggregator := by
  unfold Obligations.BoreAtTheAggregator
  intro s l copies h group e hu fromDie
  have off {b : Bool} : (!b) = true ↔ b = false := Bool.not_eq_eq_eq_not
  have hdie (g : Agg) : g.boreIn (.die l) copies = fromDie g := by
    unfold Agg.boreIn
    refine if_congr Bool.or_eq_true_iff rfl ?_
    generalize g.boreTake l.val copies = x
    cases hm : majority x.1 with
    | none => simp only [hm]; rfl
    | some e =>
      simp only [hm]
      exact if_congr Iff.rfl rfl (if_congr Iff.rfl rfl (if_congr off rfl (if_congr off rfl rfl)))
  refine ⟨aggDoes_of_ready s rfl hu (hdie _), aggDoes_of_ready s rfl hu (hdie _), aggDoes_of_ready s rfl hu ?up,
    fun g e => ?echo, aggDoes_of_ready s rfl hu ?relay⟩
  case up =>
    unfold Agg.boreIn
    refine if_congr Iff.rfl rfl ?_
    generalize s.agg.begin_.boreTake 16 copies = x
    cases hm : majority x.1 with
    | none => simp only [hm]
    | some e =>
      simp only [hm]
      exact if_congr Iff.rfl rfl (if_congr off rfl rfl)
  case echo =>
    unfold Agg.echo
    exact if_congr (and_congr Iff.rfl off) rfl (if_congr Bool.and_eq_true_iff rfl rfl)
  case relay =>
    unfold Agg.relayIn
    generalize s.agg.begin_.treeIn h (.event group e) = x
    have hfence {a b : Bool} : (!a || !b) = true ↔ a = false ∨ b = false := Bool.or_eq_true_iff.trans (or_congr off off)
    exact if_congr off rfl (if_congr hfence rfl (if_congr off rfl (if_congr Iff.rfl rfl (if_congr Iff.rfl rfl
      (if_congr (and_congr Iff.rfl off) rfl rfl)))))

end Sys2Proof.Machine
end

section
/-! PROOFS. The link states of a Tributary lane (R276): its inputs on either end, and O45. -/

namespace Sys2Proof.Machine

open Sys2Proof

/-- Settles O45: first the inputs as functions of a lane end, then what a die and the aggregator add where UP is left or
entered; each command is one of the former under one of the latter. -/
theorem tributaryTrainsRunsAndFalls : Obligations.TributaryTrainsRunsAndFalls := by
  unfold Obligations.TributaryTrainsRunsAndFalls
  intro s l h role version port id cause fixed bad at_ refuse link train send lock restart timeout codewords crc dieAct aggAct
  have htrain (lane : Option Nat) (peer : Nat) :
      (fun p t => trainIn p t lane h (role == peer) version port id) = train lane peer := by
    funext p t
    have hrole : (!(role == peer)) = true ↔ role ≠ peer := by simp
    exact if_congr Iff.rfl rfl (if_congr Iff.rfl rfl (if_congr (or_congr Iff.rfl hrole) rfl rfl))
  have hlock (lane : Option Nat) : (fun p t => linkLock p t lane) = lock lane := by
    funext p t
    exact if_congr (and_congr Iff.rfl (by cases lane <;> simp)) rfl rfl
  -- Stated of any part: the kernel would compute 20 ms in unary to compare the two at the time TRAIN_TIMEOUT reaches.
  have hrestart (lane : Option Nat) (cause : Nat) (p : Part) (t : Port) :
      linkRestart p t lane cause = restart lane cause p t := rfl
  have htimeout (lane : Option Nat) : (fun p t => linkTimeout p t lane) = timeout lane := by
    funext p t
    exact if_congr Iff.rfl (hrestart lane 6 _ t) rfl
  have hdie (d : Die) (f : Part → Port → Part × Port) : d.laneAct f = dieAct d f :=
    if_congr (Bool.and_eq_true_iff.trans (and_congr Iff.rfl Bool.not_eq_eq_eq_not)) rfl rfl
  have hagg (g : Agg) (f : Part → Port → Part × Port) : g.laneAct l f = aggAct g f := by
    simp only [Agg.laneAct, aggAct, Bool.and_eq_true, Bool.not_eq_true']
  constructor
  case left =>
    intro hu
    refine ⟨dieDoes_of_ready s l _ _ rfl hu ?train, dieDoes_of_ready s l _ _ rfl hu rfl,
      dieDoes_of_ready s l _ _ rfl hu (congrArg _ (hlock none)), dieDoes_of_ready s l _ _ rfl hu (hdie _ _),
      dieDoes_of_ready s l _ _ rfl hu (congrArg _ (htimeout none)), dieDoes_of_powered s l _ _ rfl hu ?retrain,
      dieDoes_of_ready s l _ _ rfl hu (hdie _ _)⟩
    case train => exact (hdie _ _).trans (congrArg _ (htrain none 1))
    case retrain => exact (Die.strobe_retrain (s.die l).begin_ hu.2).trans (Die.admitted_congr _ _ _ (hdie _ _))
  case right =>
    intro hu
    refine ⟨aggDoes_of_ready s rfl hu ?train, aggDoes_of_ready s rfl hu (hagg _ _),
      aggDoes_of_ready s rfl hu ((hagg _ _).trans (congrArg _ (hlock (some l.val)))),
      aggDoes_of_ready s rfl hu (hagg _ _),
      aggDoes_of_ready s rfl hu ((hagg _ _).trans (congrArg _ (htimeout (some l.val)))),
      aggDoes_of_ready s rfl hu ?retrain, aggDoes_of_ready s rfl hu (hagg _ _)⟩
    case train =>
      have hact (g : Agg) := (hagg g _).trans (congrArg (aggAct g) (htrain (some l.val) 0))
      generalize s.agg.begin_ = g
      exact if_congr Iff.rfl rfl (by rw [← hact])
    case retrain => exact (Agg.strobe_retrain l.val _ l.isLt).trans (Agg.admitted_congr _ _ _ (hagg _ _))

end Sys2Proof.Machine
end

section
/-! PROOFS. Merging at CONFLUENCE (R290–R299, R311): its guards as propositions, and O48. -/

namespace Sys2Proof.Machine

open Sys2Proof

variable (g : Agg)

/-- Work in flight is held exactly while the page is FAULTED (R41). -/
theorem Agg.mergeRuns_eq_false_iff : g.mergeRuns = false ↔ g.part.pstate 1 = .faulted := by simp [Agg.mergeRuns]

/-- The inputs a step record is not merged for. -/
theorem Agg.stepRecord_refused_iff (l : Nat) (bs : List Byte) :
    (bs.length ≠ 64 ∨ (!crcOk bs) = true ∨ (!(g.membersOf (srField bs 8 4)).contains l) = true ∨ (!g.mergeTakes) = true) ↔
      ¬ (bs.length = 64 ∧ crcOk bs = true ∧ l ∈ g.membersOf (srField bs 8 4) ∧ g.mergeTakes = true) := by
  simp only [not_and_or, Bool.not_eq_true', Bool.not_eq_true, List.contains_eq_mem, decide_eq_false_iff_not, ne_eq]

/-- A child beyond the limit of R15. -/
theorem Agg.child_beyond_iff (node : Nat) :
    (g.interior && g.children.length == 32 && !(g.children.any fun c => c.2 == node) &&
      !(g.conf.jobs.any fun j => j.children.any fun x => x.1 == node)) = true ↔
    g.interior = true ∧ g.children.length = 32 ∧ (∀ c ∈ g.children, c.2 ≠ node) ∧
      (∀ j ∈ g.conf.jobs, ∀ x ∈ j.children, x.1 ≠ node) := by
  simp only [Bool.and_eq_true, Bool.not_eq_true', List.any_eq_false, beq_iff_eq, Bool.not_eq_true, and_assoc, ne_eq]

/-- A list of pairs none of which has the key. -/
theorem all_fst_bne_iff {α : Type} (xs : List (Nat × α)) (k : Nat) :
    (xs.all fun x => x.1 != k) = true ↔ ∀ x ∈ xs, x.1 ≠ k := by
  simp only [List.all_eq_true, bne_iff_ne]

/-- Settles O48: each command branch by branch, an input of a step by the context it finds: open, closed, or neither. -/
theorem stepRecordsAndSketchesMerge : Obligations.StepRecordsAndSketchesMerge := by
  unfold Obligations.StepRecordsAndSketchesMerge
  intro s l bs h job step off total hostNs bad hu
  refine ⟨aggDoes_of_ready s rfl hu ?record, aggDoes_of_ready s rfl hu ?close, aggDoes_of_ready s rfl hu ?sketch,
    aggDoes_of_ready s rfl hu ?send, fun g k => ?readout⟩
  case record =>
    generalize s.agg.begin_ = g
    unfold Agg.stepReceive Agg.stepRecord
    refine (if_congr (g.stepRecord_refused_iff l bs) rfl rfl).trans ((ite_not _ _ _).trans (if_congr Iff.rfl ?_ rfl))
    simp only [List.contains_iff_mem]
    cases g.ctxOf (srField bs 8 4) (srField bs 0xC 4) with
    | some c => rfl
    | none =>
      cases g.conf.closed.find? fun c => c.job == srField bs 8 4 && c.step == srField bs 0xC 4 with
      | some c => rfl
      | none => cases g.merging <;> rfl
  case close =>
    generalize s.agg.begin_ = g
    unfold Agg.closeExpired
    cases g.ctxOf job step with
    | none => rfl
    | some c =>
      refine Eq.symm ((if_congr g.mergeRuns_eq_false_iff.symm rfl rfl).trans ?_)
      cases g.mergeRuns <;> rfl
  case sketch =>
    unfold Agg.sketchFrame Agg.framed
    beta_reduce
    generalize s.agg.begin_.treeIn h (.sketch off total bs) = r
    refine if_congr Iff.rfl ?_ rfl
    generalize r.2 = g
    unfold Agg.sketchPart
    refine if_congr (g.child_beyond_iff h.node) rfl ?_
    generalize sget {} g.conf.sketchParts h.node = z
    simp only [all_fst_bne_iff]
    generalize (if z.total = total ∧ ∀ x ∈ z.parts, x.1 ≠ off then z.parts else []) ++ [(off, bs)] = ps
    cases joined total (ps.length + 1) 0 ps with
    | none => rfl
    | some all =>
      dsimp only
      unfold Agg.sketchReceive
      refine if_congr Bool.not_eq_eq_eq_not rfl ?_
      simp only [all_fst_bne_iff, List.contains_iff_mem]
      generalize readSketch all = k
      generalize Agg.sketchCheck _ k all = r
      obtain ⟨ok, g⟩ := r
      refine if_congr Iff.rfl rfl ?_
      cases g.ctxOf k.job k.step with
      | some c => rfl
      | none =>
        cases g.conf.closed.find? fun c => c.job == k.job && c.step == k.step with
        | some c => rfl
        | none => cases g.merging <;> rfl
  case send =>
    generalize s.agg.begin_ = g
    unfold Agg.sketchSend
    cases g.conf.merged with
    | nil => rfl
    | cons m ms => exact if_congr (Bool.not_eq_eq_eq_not.trans g.mergeRuns_eq_false_iff) rfl rfl
  case readout =>
    unfold Agg.sketchReadout
    cases k.firstBin with
    | none => rfl
    | some x => rfl

end Sys2Proof.Machine
end

section
/-! PROOFS. Broadcast timers, freezes and drift models (R303, R312–R316): their guards as propositions, and O51. -/

namespace Sys2Proof.Machine

open Sys2Proof

section Guards

variable (g : Agg) (b : BcState)

/-- The decision is the root's, of a broadcast not yet confirmed or withdrawn (R313). -/
theorem Agg.decide_skipped_iff : (!g.isRoot || b.parent.isSome || b.confirm || b.abort) = true ↔
    ¬ (g.isRoot = true ∧ b.parent = none ∧ b.confirm = false ∧ b.abort = false) := by
  simp only [Bool.or_eq_true, Bool.not_eq_true', Option.isSome_iff_ne_none, not_and_or, Bool.not_eq_true,
    Bool.not_eq_false, or_assoc, ne_eq]

/-- What follows CONFIRM is for the node that sent it first, until `ended` (R313, R314). -/
theorem BcState.afterConfirm_skipped_iff (ended : Bool) : (b.parent.isSome || !b.confirm || ended) = true ↔
    ¬ (b.parent = none ∧ b.confirm = true ∧ ended = false) := by
  simp only [Bool.or_eq_true, Bool.not_eq_true', Option.isSome_iff_ne_none, not_and_or, Bool.not_eq_true,
    Bool.not_eq_false, or_assoc, ne_eq]

/-- A tray withdraws what its parent sent and has not confirmed or withdrawn (R314). -/
theorem Agg.selfAbort_skipped_iff : (g.interior || b.parent.isNone || b.confirm || b.abort) = true ↔
    ¬ (g.interior = false ∧ b.parent ≠ none ∧ b.confirm = false ∧ b.abort = false) := by
  simp only [Bool.or_eq_true, Option.isNone_iff_eq_none, not_and_or, Bool.not_eq_false, or_assoc, ne_eq, not_not]

/-- A guard that names when nothing is done, as one that names when something is. -/
theorem ite_skip {α : Type} {p q : Prop} [Decidable p] [Decidable q] {x y z : α} (h : p ↔ ¬ q) (hy : y = z) :
    (if p then x else y) = if q then z else x :=
  (if_congr h rfl hy).trans (ite_not q x z)

end Guards

/-- Time carried forward keeps what CONFLUENCE holds: a cut that falls due latches counters of its lane alone (R286). -/
theorem Agg.reach_conf (g : Agg) (ns : Nat) : (g.reach ns).conf = g.conf :=
  List.foldlRecOn (motive := fun x : Agg => x.conf = g.conf) _ _ rfl fun _ h _ _ => h

/-- A freeze whose rings still run stops them, and records it (R316). -/
theorem Agg.freezeNow_of_running {g : Agg} {z : Freeze} (hz : g.conf.freeze = some z) (hf : ¬ z.frozen = true) :
    g.freezeNow = (g.onConf fun x => { x with freeze := some { z with frozen := true } }).onPart fun p =>
      (p.setBit 0x1044 2 true).raise 1 29 { unit := z.port, detail := leBytes 1 z.cause ++ leBytes 1 z.port ++ [0] } := by
  simp only [Agg.freezeNow, hz, if_neg hf]

/-- The command bits and the class of the word MODEL_VALIDATE writes (R303). -/
theorem modelValidate_word (cls : Fin 8) :
    wbit (BitVec.ofNat 32 (1 + 2 * cls.val)) 0 = true ∧ wbit (BitVec.ofNat 32 (1 + 2 * cls.val)) 4 = false ∧
      bitsOf (BitVec.ofNat 32 (1 + 2 * cls.val)).toNat 1 3 = cls.val := by
  revert cls
  decide

/-- The same of the word MODEL_SWAP_ARM writes. -/
theorem modelSwapArm_word (cls : Fin 8) :
    wbit (BitVec.ofNat 32 (0x10 + 2 * cls.val)) 0 = false ∧ wbit (BitVec.ofNat 32 (0x10 + 2 * cls.val)) 4 = true ∧
      bitsOf (BitVec.ofNat 32 (0x10 + 2 * cls.val)).toNat 1 3 = cls.val := by
  revert cls
  decide

/-- Settles O51: the timers on a broadcast that is known, each by when it does nothing; the freeze by whether there is one;
the models by the bits of the word written. -/
theorem broadcastTimersFreezesAndModels : Obligations.BroadcastTimersFreezesAndModels := by
  unfold Obligations.BroadcastTimersFreezesAndModels
  intro s id node cls hu known
  have hknown (g : Agg) (F f : BcState → Agg) (h : ∀ b, F b = f b) : known g F = known g f := congrArg _ (funext h)
  refine ⟨aggDoes_of_ready s rfl hu ?hop, aggDoes_of_ready s rfl hu ?gather, aggDoes_of_ready s rfl hu ?decide,
    aggDoes_of_ready s rfl hu ?check, aggDoes_of_ready s rfl hu ?abort, aggDoes_of_ready s rfl hu ?split,
    aggDoes_of_ready s rfl hu ?freeze, aggDoes_of_ready s rfl hu ?unfreeze, aggDoes_of_ready s rfl hu ?post,
    aggDoes_of_ready s rfl hu ?max, aggDoes_of_ready s rfl hu ?validate, aggDoes_of_ready s rfl hu ?arm⟩ <;>
    generalize s.agg.begin_ = g
  case hop =>
    unfold Agg.hopTimeout
    exact hknown g _ _ fun b => rfl
  case gather =>
    unfold Agg.gatherExpired
    refine hknown g _ _ fun b => ?_
    cases b.gatherUntil with
    | none => rfl
    | some t => exact ite_congr rfl (fun _ => rfl) fun hown => if_neg hown
  case decide =>
    unfold Agg.decide_
    refine hknown g _ _ fun b => ite_skip (g.decide_skipped_iff b) ?_
    obtain ⟨x, y, z⟩ := b.totals
    exact if_congr (by simp only [Prod.mk.injEq]) rfl rfl
  case check =>
    unfold Agg.confirmCheck
    exact hknown g _ _ fun b => ite_skip (b.afterConfirm_skipped_iff b.abort) rfl
  case abort =>
    unfold Agg.selfAbort
    exact hknown g _ _ fun b => ite_skip (g.selfAbort_skipped_iff b) rfl
  case split =>
    unfold Agg.startSplit
    exact hknown g _ _ fun b => ite_skip (b.afterConfirm_skipped_iff b.split) rfl
  case freeze => exact g.strobe_freezeNow.trans (g.admitted_congr _ _ (if_neg fun h => h.1 rfl))
  case unfreeze => exact g.strobe_unfreeze
  case post =>
    unfold Agg.freezePost
    cases hz : g.conf.freeze with
    | none => rfl
    | some z => exact ite_congr rfl (fun _ => rfl) fun hf => Agg.freezeNow_of_running ((g.reach_conf _).symm ▸ hz) hf
  case max => rfl
  case validate =>
    obtain ⟨h0, h4, hcls⟩ := modelValidate_word cls
    have hok (a b c : Nat) : (a == 0 && b == c) = decide (a = 0 ∧ b = c) := (Bool.decide_and _ _).symm
    refine (g.barWrite_driftModel _).trans (g.admitted_congr _ _ ?_)
    simp only [h0, h4, hcls, if_true, Bool.false_eq_true, if_false]
    simp only [Agg.modelValidate, hok, Bool.not_eq_true']
  case arm =>
    obtain ⟨h0, h4, hcls⟩ := modelSwapArm_word cls
    refine (g.barWrite_driftModel _).trans (g.admitted_congr _ _ ?_)
    simp only [h0, h4, hcls, if_true, Bool.false_eq_true, if_false]
    rfl

end Sys2Proof.Machine
end

section
/-! PROOFS. Every command's answer (O3), and the block right after reset (R54, R391, R440): O8 and O9. -/

namespace Sys2Proof.Machine

open Sys2Proof

/-- Settles O3: every command changes one part, and a change of a part keeps the queue. -/
theorem everyCommandAnswersANextState : Obligations.EveryCommandAnswersANextState := by
  unfold Obligations.EveryCommandAnswersANextState
  intro c s
  have hc := exec_reachesOnly c s
  cases hp : partOf c with
  | die l =>
    obtain ⟨f, hf⟩ := hp ▸ hc
    exact ⟨s.onDie l f, hf, s.onDie_pending l f⟩
  | agg =>
    obtain ⟨f, hf⟩ := hp ▸ hc
    exact ⟨s.onAgg f, hf, s.onAgg_pending f⟩

/-- The die of a lane after reset has its reset state, its straps reading the lane (R54, R394). -/
theorem State.reset_die (l : Lane) : State.reset.die l = Die.reset l {} := by simp [State.die, State.reset]

/-- Settles O8: what the outputs show is computed from the reset state of a die and of the aggregator. -/
theorem resetShowsItsOutputs : Obligations.ResetShowsItsOutputs := by
  unfold Obligations.ResetShowsItsOutputs
  refine ⟨⟨fun l => ?irq, ?faultN⟩, rfl, rfl, rfl, fun l => ?die⟩
  case irq => rw [State.reset_die]; rfl
  case faultN => rfl
  case die => rw [State.reset_die]; exact ⟨rfl, rfl, rfl⟩

/-- Settles O9: a part at reset lists no word and no header; the aggregator's straps set the word of ID_STAT alone. -/
theorem registersResetToTheirTable : Obligations.RegistersResetToTheirTable := by
  unfold Obligations.RegistersResetToTheirTable
  refine ⟨fun l a => ?word, fun l page => ?header, fun a ha => ?aggWord, fun page => rfl⟩
  case word => rw [State.reset_die]; rfl
  case header => rw [State.reset_die]; rfl
  case aggWord => exact Part.rd_wr_other { isAgg := true } 0x40 a _ rfl ha

end Sys2Proof.Machine
end

section
/-! PROOFS. The one store discipline (R35, R38, R49): bytes written to a buffer, O10, and a register word set, O11. -/

namespace Sys2Proof.Machine

open Sys2Proof

/-- A byte outside those written reads as before. -/
theorem Mem.rd8_wrBytes_outside (bs : List Byte) : ∀ (m : Mem) (a k : Nat), Mem.wf m = true →
    (k < a ∨ a + bs.length ≤ k) → Mem.rd8 (Mem.wrBytes m a bs) k = Mem.rd8 m k := by
  induction bs with
  | nil => intro m a k _ _; rfl
  | cons b bs ih =>
    intro m a k h hk
    rw [List.length_cons] at hk
    exact (ih _ (a + 1) k (Mem.wf_wr8 m a b h) (by omega)).trans (Mem.rd8_wr8_other m a k b h (by omega))

/-- A byte written reads back: those written after it lie above it. -/
theorem Mem.rd8_wrBytes_inside (bs : List Byte) : ∀ (m : Mem) (a i : Nat) (b : Byte), Mem.wf m = true →
    bs[i]? = some b → Mem.rd8 (Mem.wrBytes m a bs) (a + i) = b := by
  induction bs with
  | nil => intro m a i b _ hb; cases hb
  | cons x bs ih =>
    intro m a i b h hb
    have hw := Mem.wf_wr8 m a x h
    cases i with
    | zero =>
      cases hb
      exact (Mem.rd8_wrBytes_outside bs _ (a + 1) a hw (by omega)).trans (Mem.rd8_wr8_same m a x h)
    | succ i => exact (show a + (i + 1) = a + 1 + i by omega) ▸ ih _ (a + 1) i b hw hb

/-- Settles O10, by the laws of bytes written. -/
theorem memoryReadsBackWhatWasWritten : Obligations.MemoryReadsBackWhatWasWritten := by
  unfold Obligations.MemoryReadsBackWhatWasWritten
  intro m a bs h
  exact ⟨Mem.wf_wrBytes bs m a h, fun i b hb => Mem.rd8_wrBytes_inside bs m a i b h hb,
    fun k hk => Mem.rd8_wrBytes_outside bs m a k h hk⟩

/-- Settles O11, by the laws of a register word set. -/
theorem registerWordsAreIndependent : Obligations.RegisterWordsAreIndependent := by
  unfold Obligations.RegisterWordsAreIndependent
  intro p a b w hw
  exact ⟨p.rd_wr_same a w hw, p.rd_wr_other a b w hw, p.swf_wr a w hw, p.wr_hdrs a w, p.wr_time a w, p.wr_disc a w,
    p.wr_stages a w, p.wr_emitted a w⟩

end Sys2Proof.Machine
end

section
/-! PROOFS. The life cycle of a page (R41–R43) on either part: its inputs ENABLE, DRAIN, enable done and drain done, O13 and
O14, and the drain bound, O15. -/

namespace Sys2Proof.Machine

open Sys2Proof

/-! ### PAGE_CTL -/

/-- The page and the offset of a header word's address. -/
theorem hdrAddr_page (page o : Nat) (ho : o < 0x1000) : hdrAddr page o / 0x1000 = page := by unfold hdrAddr; omega
theorem hdrAddr_off (page o : Nat) (ho : o < 0x1000) : hdrAddr page o % 0x1000 = o := by unfold hdrAddr; omega

/-- A die's write of a header word of an unassigned page (R34). -/
theorem Die.regWrite_hdr_unassigned (d : Die) (page o : Nat) (ho : o < 0x1000) (w : W32) (e : Ecc)
    (hc : (dieClass page).isNone = true) :
    d.regWrite (hdrAddr page o) w e = d.onPart fun p => p.accessErr 0 (hdrAddr page o) w true := by
  simp only [Die.regWrite, hdrAddr_page page o ho, hc, if_true]

/-- The same for the aggregator. -/
theorem Agg.barWrite_hdr_unassigned (g : Agg) (page o : Nat) (ho : o < 0x1000) (w : W32) (e : Ecc)
    (hc : (aggClass page).isNone = true) :
    g.barWrite (hdrAddr page o) w e = g.onPart fun p => p.accessErr 0 (hdrAddr page o) w true := by
  simp only [Agg.barWrite, hdrAddr_page page o ho, hc, if_true]

/-- A die's write of PAGE_CTL: no injection of ACCESS_ERR turns it away (R34, R41). -/
theorem Die.regWrite_pageCtl (d : Die) (page : Nat) (w : W32) (e : Ecc) :
    d.regWrite (hdrAddr page 4) w e =
      if (dieClass page).isNone then d.onPart fun p => p.accessErr 0 (hdrAddr page 4) w true else d.pageCtl page w := by
  cases hc : (dieClass page).isNone with
  | true => exact d.regWrite_hdr_unassigned page 4 (by decide) w e hc
  | false =>
    have hs : (dieClass page).isSome = true := by rw [← Option.not_isNone, hc]; rfl
    have ho := hdrAddr_off page 4 (by decide)
    rw [d.regWrite_hdr page 4 (by decide) (by decide) (by omega) hs, d.admitted_hdr _ _ (by omega) (by omega)]
    rfl

/-- The same for the aggregator. -/
theorem Agg.barWrite_pageCtl (g : Agg) (page : Nat) (w : W32) (e : Ecc) :
    g.barWrite (hdrAddr page 4) w e =
      if (aggClass page).isNone then g.onPart fun p => p.accessErr 0 (hdrAddr page 4) w true else g.pageCtl page w := by
  cases hc : (aggClass page).isNone with
  | true => exact g.barWrite_hdr_unassigned page 4 (by decide) w e hc
  | false =>
    have hs : (aggClass page).isSome = true := by rw [← Option.not_isNone, hc]; rfl
    have ho := hdrAddr_off page 4 (by decide)
    rw [g.barWrite_hdr page 4 (by decide) (by decide) hs, g.admitted_hdr _ _ (by omega) (by omega)]
    rfl

/-! ### The inputs by the state of the page -/

/-- Enable done is discarded outside ENABLING (R41). -/
theorem Part.enabledInput_eq (p : Part) (page : Nat) :
    p.enabledInput page = if p.pstate page = .enabling then (.runs, p.modHdr page fun h => { h with state := .active })
      else (.none, p) := by
  unfold Part.enabledInput
  cases p.pstate page <;> rfl

/-- Drain done is discarded outside DRAINING (R41, R43). -/
theorem Part.drainedInput_eq (p : Part) (page : Nat) :
    p.drainedInput page = if p.pstate page = .draining then
        if (p.hdr page).enablePending then
          (.starts, p.modHdr page fun h => { h with state := .enabling, enablePending := false })
        else (.ends, p.modHdr page fun h => { h with state := .off })
      else (.none, p) := by
  unfold Part.drainedInput
  cases p.pstate page <;> rfl

/-- What a die's page does at drain done, by what R41 says of the page itself. -/
theorem Die.pageInput_drained (d : Die) (page : Nat) :
    d.pageInput page (d.part.drainedInput page) =
      if d.part.pstate page = .draining then
        if (d.part.hdr page).enablePending then
          (d.onPart fun p => p.modHdr page fun h => { h with state := .enabling, enablePending := false }).pageStarts page
        else (d.onPart fun p => p.modHdr page fun h => { h with state := .off }).pageEnds page
      else d := by
  rw [Part.drainedInput_eq, apply_ite (d.pageInput page), apply_ite (d.pageInput page)]
  rfl

/-- The same for the aggregator. -/
theorem Agg.pageInput_drained (g : Agg) (page : Nat) :
    g.pageInput page (g.part.drainedInput page) =
      if g.part.pstate page = .draining then
        if (g.part.hdr page).enablePending then
          (g.onPart fun p => p.modHdr page fun h => { h with state := .enabling, enablePending := false }).pageStarts page
        else (g.onPart fun p => p.modHdr page fun h => { h with state := .off }).pageEnds page
      else g := by
  rw [Part.drainedInput_eq, apply_ite (g.pageInput page), apply_ite (g.pageInput page)]
  rfl

/-- An input that is barred while `q` holds, and does something only where `r` does. -/
theorem ite_barred {α : Type} {q r : Prop} [Decidable q] [Decidable r] {x y : α} :
    (if q then y else if r then x else y) = if r ∧ ¬ q then x else y := by
  by_cases hq : q <;> simp [hq]

/-- ENABLE is refused for ETH and CONFLUENCE without an identity (R406) and for TRIB_PORT in the interior role (R408). -/
theorem Agg.enableRefused_iff (g : Agg) (page : Nat) :
    g.enableRefused page = true ↔
      ((aggClass page = some .eth ∨ aggClass page = some .confluence) ∧ g.nodeValid = false) ∨
        (aggClass page = some .tribPort ∧ g.interior = true) := by
  unfold Agg.enableRefused
  cases aggClass page with
  | none => simp
  | some c => cases c <;> simp

/-- Settles O13: ENABLE and DRAIN are writes of PAGE_CTL, and each input acts by the state it finds. -/
theorem diePageStateInputs : Obligations.DiePageStateInputs := by
  unfold Obligations.DiePageStateInputs
  intro s l page hu ctl
  have hr : (s.die l).begin_.ready = true := hu.2
  refine ⟨dieDoes_of_powered s l _ _ rfl hu ?enable, dieDoes_of_powered s l _ _ rfl hu ?drain,
    dieDoes_of_ready s l _ _ rfl hu ?enabled, dieDoes_of_ready s l _ _ rfl hu ?drained⟩ <;>
    generalize (s.die l).begin_ = d at hr
  case enable =>
    refine ((d.writePort_ready hr _ _ _).trans (d.regWrite_pageCtl page 1 .ok)).trans (if_congr Iff.rfl rfl
      ((d.pageCtl_enable page).trans (if_congr Iff.rfl rfl ?_)))
    unfold Die.pageEnable Part.enableInput
    beta_reduce
    cases d.part.pstate page <;> rfl
  case drain =>
    refine ((d.writePort_ready hr _ _ _).trans (d.regWrite_pageCtl page 2 .ok)).trans (if_congr Iff.rfl rfl
      ((d.pageCtl_drain page).trans (if_congr Iff.rfl rfl ?_)))
    unfold Die.pageDrain Part.drainInput
    beta_reduce
    cases d.part.pstate page <;> rfl
  case enabled =>
    unfold Die.pageEnabled
    rw [Part.enabledInput_eq, apply_ite (d.pageInput page)]
    exact ite_barred
  case drained => exact (if_congr Iff.rfl (d.pageInput_drained page) rfl).trans (ite_and ..).symm

/-- Settles O14 as O13; ENABLE may be refused first. -/
theorem aggregatorPageStateInputs : Obligations.AggregatorPageStateInputs := by
  unfold Obligations.AggregatorPageStateInputs
  intro s page hu ctl cancels
  refine ⟨aggDoes_of_ready s rfl hu ?enable, aggDoes_of_ready s rfl hu ?drain, aggDoes_of_ready s rfl hu ?enabled,
    aggDoes_of_ready s rfl hu ?drained⟩ <;>
    generalize s.agg.begin_ = g
  case enable =>
    refine (g.barWrite_pageCtl page 1 .ok).trans (if_congr Iff.rfl rfl
      ((g.pageCtl_enable page).trans (if_congr Iff.rfl rfl (if_congr (g.enableRefused_iff page) rfl ?_))))
    unfold Part.enableInput
    cases g.part.pstate page <;> rfl
  case drain =>
    refine (g.barWrite_pageCtl page 2 .ok).trans (if_congr Iff.rfl rfl
      ((g.pageCtl_drain page).trans (if_congr Iff.rfl rfl ?_)))
    unfold Agg.pageDrain Part.drainInput
    beta_reduce
    cases g.part.pstate page <;> rfl
  case enabled =>
    unfold Agg.pageEnabled
    rw [Part.enabledInput_eq, apply_ite (g.pageInput page)]
    rfl
  case drained => exact (if_congr Iff.rfl (g.pageInput_drained page) rfl).trans (ite_and ..).symm

/-! ### The drain bound -/

/-- Settles O15: what the bound does to the page is the same on either part; on a die RIFFLE then gives its windows away. -/
theorem drainBoundFaultsThePage : Obligations.DrainBoundFaultsThePage := by
  unfold Obligations.DrainBoundFaultsThePage
  intro s l page timed
  have hin (p : Part) (h : p.pstate page = .draining) : p.drainTimeout page = timed p := by
    simp only [Part.drainTimeout, h]; rfl
  have hout (p : Part) (h : p.pstate page ≠ .draining) : p.drainTimeout page = p := by
    unfold Part.drainTimeout
    split
    · exact absurd ‹_› h
    · rfl
  refine ⟨fun hu => dieDoes_of_ready s l _ _ rfl hu ?die, fun hu => aggDoes_of_ready s rfl hu ?agg⟩
  case die =>
    generalize (s.die l).begin_ = d
    unfold Die.pageTimeout
    by_cases h : d.part.pstate page = .draining
    · have hd : (d.onPart fun p => p.drainTimeout page) = d.onPart timed := congrArg (fun p => { d with part := p }) (hin _ h)
      simp only [h, hd, if_true]
      rfl
    · have hd : (d.onPart fun p => p.drainTimeout page) = d := congrArg (fun p => { d with part := p }) (hout _ h)
      simp only [h, hd, if_false]
  case agg =>
    generalize s.agg.begin_ = g
    unfold Agg.pageTimeout
    by_cases h : g.part.pstate page = .draining
    · exact (congrArg (fun p => { g with part := p }) (hin _ h)).trans (if_pos h).symm
    · exact (congrArg (fun p => { g with part := p }) (hout _ h)).trans (if_neg h).symm

end Sys2Proof.Machine
end

section
/-! PROOFS. Commands on the common header of a page (R37–R39, R46, R47), O16, and accesses to what is not assigned (R34),
O17. -/

namespace Sys2Proof.Machine

open Sys2Proof

/-! ### Words of the common header -/

/-- A die's write of a header word other than PAGE_CTL and DEADLINE_NS. -/
theorem Die.regWrite_headerWord (d : Die) (page o : Nat) (w : W32) (e : Ecc) (ho : o < 0x1C) (h4 : o % 4 = 0)
    (hn : o ≠ 4) :
    d.regWrite (hdrAddr page o) w e =
      if (dieClass page).isNone then d.onPart fun p => p.accessErr 0 (hdrAddr page o) w true
      else d.admitted (hdrAddr page o) w fun d => d.onPart fun p => p.hdrWrite page o w := by
  cases hc : (dieClass page).isNone with
  | true => exact d.regWrite_hdr_unassigned page o (by omega) w e hc
  | false =>
    have hs : (dieClass page).isSome = true := by rw [← Option.not_isNone, hc]; rfl
    rw [d.regWrite_hdr page o (by omega) h4 (by omega) hs]
    simp only [hn, if_false, Bool.false_eq_true]

/-- The same for the aggregator. -/
theorem Agg.barWrite_headerWord (g : Agg) (page o : Nat) (w : W32) (e : Ecc) (ho : o < 0x40) (h4 : o % 4 = 0)
    (hn : o ≠ 4) :
    g.barWrite (hdrAddr page o) w e =
      if (aggClass page).isNone then g.onPart fun p => p.accessErr 0 (hdrAddr page o) w true
      else g.admitted (hdrAddr page o) w fun g => g.onPart fun p => p.hdrWrite page o w := by
  cases hc : (aggClass page).isNone with
  | true => exact g.barWrite_hdr_unassigned page o (by omega) w e hc
  | false =>
    have hs : (aggClass page).isSome = true := by rw [← Option.not_isNone, hc]; rfl
    rw [g.barWrite_hdr page o ho h4 hs]
    simp only [hn, if_false, Bool.false_eq_true]

/-- Settles O16: SOFT_CLEAR and LOCK are bits of PAGE_CTL, the other two are writes of their header words. -/
theorem headerCommandsOfEveryPage : Obligations.HeaderCommandsOfEveryPage := by
  unfold Obligations.HeaderCommandsOfEveryPage
  intro s l page w cleared w1c inject
  have hclear (p : Part) : p.softClear page = cleared p := rfl
  have hinject (p : Part) : p.hdrWrite page 0x14 w = inject p := p.hdrWrite_at page 0x14 _ w rfl
  have hoff (o : Nat) (ho : o < 0x1000) : hdrAddr page o % 0x1000 = o := hdrAddr_off page o ho
  constructor
  case left =>
    intro hu known
    have hr : (s.die l).begin_.ready = true := hu.2
    refine ⟨dieDoes_of_powered s l _ _ rfl hu ?clear, dieDoes_of_powered s l _ _ rfl hu ?lock,
      dieDoes_of_powered s l _ _ rfl hu ?stat, dieDoes_of_powered s l _ _ rfl hu ?arm⟩ <;>
      generalize (s.die l).begin_ = d at hr <;>
      refine (d.writePort_ready hr _ _ _).trans ?_
    case clear => exact (d.regWrite_pageCtl page 4 .ok).trans (if_congr Iff.rfl rfl (d.pageCtl_softClear page))
    case lock => exact (d.regWrite_pageCtl page 8 .ok).trans (if_congr Iff.rfl rfl (d.pageCtl_lock page))
    case stat =>
      refine (d.regWrite_headerWord page 0xC w .ok (by decide) (by decide) (by decide)).trans (if_congr Iff.rfl rfl ?_)
      exact d.admitted_hdr _ _ (by rw [hoff _ (by decide)]; decide) (by rw [hoff _ (by decide)]; decide)
    case arm =>
      refine (d.regWrite_headerWord page 0x14 w .ok (by decide) (by decide) (by decide)).trans (if_congr Iff.rfl rfl ?_)
      exact d.admitted_congr _ _ (congrArg d.onPart (funext hinject))
  case right =>
    intro hu known
    refine ⟨aggDoes_of_ready s rfl hu ?clear, aggDoes_of_ready s rfl hu ?lock, aggDoes_of_ready s rfl hu ?stat,
      aggDoes_of_ready s rfl hu ?arm⟩ <;>
      generalize s.agg.begin_ = g
    case clear => exact (g.barWrite_pageCtl page 4 .ok).trans (if_congr Iff.rfl rfl (g.pageCtl_softClear page))
    case lock => exact (g.barWrite_pageCtl page 8 .ok).trans (if_congr Iff.rfl rfl (g.pageCtl_lock page))
    case stat =>
      refine (g.barWrite_headerWord page 0xC w .ok (by decide) (by decide) (by decide)).trans (if_congr Iff.rfl rfl ?_)
      exact g.admitted_hdr _ _ (by rw [hoff _ (by decide)]; decide) (by rw [hoff _ (by decide)]; decide)
    case arm =>
      refine (g.barWrite_headerWord page 0x14 w .ok (by decide) (by decide) (by decide)).trans (if_congr Iff.rfl rfl ?_)
      exact g.admitted_congr _ _ (congrArg g.onPart (funext hinject))

/-! ### Accesses to what is not assigned -/

/-- A die's write of what is not assigned changes nothing but what ACCESS_ERR records (R34). -/
theorem Die.regWrite_unassigned (d : Die) (a : Nat) (w : W32) (e : Ecc)
    (h : assigned false (a / 0x1000) (a % 0x1000 / 4 * 4) = false) :
    d.regWrite a w e = d.onPart fun p =>
      p.accessErr (if (dieClass (a / 0x1000)).isNone then 0 else a / 0x1000) a w true := by
  cases hc : (dieClass (a / 0x1000)).isNone with
  | true => simp only [Die.regWrite, hc, if_true]
  | false => simp only [Die.regWrite, hc, h, Bool.not_false, Bool.true_or, if_true, if_false, Bool.false_eq_true]

/-- A die's read of what is not assigned answers 0 (R34). -/
theorem Die.regRead_unassigned (d : Die) (src : Src) (a : Nat) (e : Ecc)
    (h : assigned false (a / 0x1000) (a % 0x1000 / 4 * 4) = false) :
    d.regRead src a e = (0, d.onPart fun p =>
      p.accessErr (if (dieClass (a / 0x1000)).isNone then 0 else a / 0x1000) a 0 false) := by
  cases hc : (dieClass (a / 0x1000)).isNone with
  | true => simp only [Die.regRead, hc, if_true]
  | false => simp only [Die.regRead, hc, h, Bool.not_false, Bool.true_or, if_true, if_false, Bool.false_eq_true]

/-- The aggregator's write of what is not assigned. -/
theorem Agg.barWrite_unassigned (g : Agg) (a : Nat) (w : W32) (e : Ecc)
    (h : assigned true (a / 0x1000) (a % 0x1000 / 4 * 4) = false) :
    g.barWrite a w e = g.onPart fun p =>
      p.accessErr (if (aggClass (a / 0x1000)).isNone then 0 else a / 0x1000) a w true := by
  cases hc : (aggClass (a / 0x1000)).isNone with
  | true => simp only [Agg.barWrite, hc, if_true]
  | false => simp only [Agg.barWrite, hc, h, Bool.not_false, Bool.true_or, if_true, if_false, Bool.false_eq_true]

/-- The aggregator's read of what is not assigned. -/
theorem Agg.barRead_unassigned (g : Agg) (src : Src) (a : Nat) (e : Ecc)
    (h : assigned true (a / 0x1000) (a % 0x1000 / 4 * 4) = false) :
    g.barRead src a e = (0, g.onPart fun p =>
      p.accessErr (if (aggClass (a / 0x1000)).isNone then 0 else a / 0x1000) a 0 false) := by
  cases hc : (aggClass (a / 0x1000)).isNone with
  | true => simp only [Agg.barRead, hc, if_true]
  | false => simp only [Agg.barRead, hc, h, Bool.not_false, Bool.true_or, if_true, if_false, Bool.false_eq_true]

/-- A read of a die that is up, answered with the word (R416). -/
theorem Die.readPort_ready (d : Die) (hr : d.ready = true) (src : Src) (a : Nat) (e : Ecc) :
    d.readPort src a e = (d.regRead src a e).2.onPart fun p => { p with out := p.out ++ [.regAck (d.regRead src a e).1] } := by
  simp only [Die.readPort, Die.access, hr, if_true]

/-- A read of BAR0, answered with the word. -/
theorem Agg.readBar_eq (g : Agg) (src : Src) (a : Nat) (e : Ecc) :
    g.readBar src a e = (g.barRead src a e).2.onPart fun p => { p with out := p.out ++ [.regAck (g.barRead src a e).1] } := rfl

/-- Settles O17: the command is the write, or the near read, of its address, and both are recorded as R34 says. -/
theorem unassignedAccessesAreRecorded : Obligations.UnassignedAccessesAreRecorded := by
  unfold Obligations.UnassignedAccessesAreRecorded
  intro s l addr w part
  refine ⟨?asWrite, ?asRead, fun hu h => ?die, fun hu h => ?agg⟩
  case asWrite => cases part <;> rfl
  case asRead => cases part <;> rfl
  case die =>
    have hr : (s.die l).begin_.ready = true := hu.2
    refine ⟨dieDoes_of_powered s l _ _ rfl hu ?write, dieDoes_of_powered s l _ _ rfl hu ?read⟩ <;>
      generalize (s.die l).begin_ = d at hr
    case write => exact (d.writePort_ready hr _ _ _).trans (d.regWrite_unassigned _ _ _ h)
    case read =>
      refine (d.readPort_ready hr _ _ _).trans ?_
      rw [d.regRead_unassigned _ _ _ h]
      rfl
  case agg =>
    refine ⟨aggDoes_of_ready s rfl hu ?write, aggDoes_of_ready s rfl hu ?read⟩ <;>
      generalize s.agg.begin_ = g
    case write => exact g.barWrite_unassigned _ _ _ h
    case read =>
      refine (g.readBar_eq _ _ _).trans ?_
      rw [g.barRead_unassigned _ _ _ h]
      rfl

end Sys2Proof.Machine
end

section
/-! PROOFS. Reads of register words (R34, R40, R47, R58): O20. -/

namespace Sys2Proof.Machine

open Sys2Proof

/-- A word of a page lies at its page and offset, byte lanes aside. -/
theorem word_of_byte (n : Nat) :
    n % 0x1000 / 4 * 4 = n / 4 * 4 % 0x1000 ∧ n / 0x1000 * 0x1000 + n / 4 * 4 % 0x1000 = n / 4 * 4 ∧
      n / 4 * 4 / 0x1000 = n / 0x1000 := by omega

/-- The page of an assigned word has a class. -/
theorem pageClass_of_assigned {isAgg : Bool} {page off : Nat} (h : assigned isAgg page off = true) :
    (pageClass isAgg page).isNone = false := by
  rw [← Option.not_isSome, (Bool.and_eq_true_iff.mp h).1]
  rfl

/-- A die's read of an assigned word other than IND_DATA. -/
theorem Die.regRead_word (d : Die) (src : Src) (n : Nat) (e : Ecc)
    (hs : assigned false (n / 0x1000) (n / 4 * 4 % 0x1000) = true) (hp : indPort (n / 0x1000) ≠ some (n / 4 * 4 - 4)) :
    d.regRead src n e =
      if d.part.accessFault (n / 0x1000) (n / 4 * 4 % 0x1000) false then
        (0, d.onPart fun p => p.accessErr (n / 0x1000) n 0 false)
      else if n / 4 * 4 % 0x1000 < 0x40 then (d.part.hdrWord (n / 0x1000) (n / 4 * 4 % 0x1000), d)
      else ((d.part.shadowRead src (n / 4 * 4) d.blockWord).1,
        { d with part := (d.part.shadowRead src (n / 4 * 4) d.blockWord).2 }) := by
  obtain ⟨hoff, hat, -⟩ := word_of_byte n
  have hc : (dieClass (n / 0x1000)).isNone = false := pageClass_of_assigned hs
  simp only [Die.regRead, hoff, hat, hc, hs, Bool.not_true, Bool.false_or, Bool.false_eq_true, if_false]
  cases h : indPort (n / 0x1000) with
  | none => rfl
  | some port =>
    have hn : ¬ n / 4 * 4 = port + 4 := fun ha => hp (by rw [h, ha]; rfl)
    simp only [hn, if_false]

/-- The aggregator's read of an assigned word other than IND_DATA; the words of DRAM that count unstated traffic draw a
free value each. -/
theorem Agg.barRead_word (g : Agg) (src : Src) (n : Nat) (e : Ecc)
    (hs : assigned true (n / 0x1000) (n / 4 * 4 % 0x1000) = true) (hp : aggPort (n / 0x1000) ≠ some (n / 4 * 4 - 4)) :
    g.barRead src n e =
      if g.part.accessFault (n / 0x1000) (n / 4 * 4 % 0x1000) false then
        (0, g.onPart fun p => p.accessErr (n / 0x1000) n 0 false)
      else if n / 4 * 4 % 0x1000 < 0x40 then (g.part.hdrWord (n / 0x1000) (n / 4 * 4 % 0x1000), g)
      else
        let r := g.part.shadowRead src (n / 4 * 4) g.blockWord
        (r.1, { g with part := if n / 0x1000 = 0x20 then { r.2 with fresh := r.2.fresh + 20 } else r.2 }) := by
  obtain ⟨hoff, hat, -⟩ := word_of_byte n
  have hc : (aggClass (n / 0x1000)).isNone = false := pageClass_of_assigned hs
  simp only [Agg.barRead, hoff, hat, hc, hs, Bool.not_true, Bool.false_or, Bool.false_eq_true, if_false]
  cases h : aggPort (n / 0x1000) with
  | none => rfl
  | some port =>
    have hn : ¬ n / 4 * 4 = port + 4 := fun ha => hp (by rw [h, ha]; rfl)
    simp only [hn, if_false]

/-- Whether a word is the low or the high word of a wide register (R40): what its row says. -/
def wideOf (isAgg : Bool) (page off : Nat) : Wide :=
  match specOf isAgg page off with
  | some (r, _) => r.wide
  | none => .one

/-- A read of a block register word, by the kind of the word (R40, R58). -/
theorem Part.shadowRead_eq (p : Part) (src : Src) (a : Nat) (view : Nat → W32) :
    p.shadowRead src a view =
      let sh := (p.hdr (a / 0x1000)).shadow src
      if wideOf p.isAgg (a / 0x1000) (a % 0x1000) = .low then
        (view a, p.modHdr (a / 0x1000) fun h => h.setShadow src
          { low := some a, hi := view (a + 4), frac := if a = timeLow p.isAgg then view (a + 8) else 0 })
      else if wideOf p.isAgg (a / 0x1000) (a % 0x1000) = .high then (if sh.low = some (a - 4) then sh.hi else view a, p)
      else (if a = timeLow p.isAgg + 8 ∧ sh.low = some (timeLow p.isAgg) then sh.frac else view a, p) :=
  if_congr Iff.rfl rfl (if_congr Iff.rfl rfl (apply_ite (·, p) _ _ _).symm)

/-- Settles O20: a read is the shadow read of its word, answered; which command it is makes no difference. -/
theorem wideReadsLatchTheirShadow : Obligations.WideReadsLatchTheirShadow := by
  unfold Obligations.WideReadsLatchTheirShadow
  intro s l src addr a page off answer read
  have hpage : a / 0x1000 = page := (word_of_byte addr.toNat).2.2
  have hread (view : Nat → W32) (p : Part) (ha : ¬ p.accessFault page off false = true) (ho : ¬ off < 0x40) :
      answer (p.shadowRead src a view).1 (p.shadowRead src a view).2 =
        read view (timeLow p.isAgg) p.isAgg p := by
    refine Eq.trans ?_ ((if_neg ha).trans (if_neg ho)).symm
    rw [p.shadowRead_eq src a view, hpage]
    show _ = if wideOf p.isAgg page off = .low then _ else if wideOf p.isAgg page off = .high then _ else _
    dsimp only
    split
    · rfl
    · split <;> rfl
  constructor
  case left =>
    intro hu hagg hs hp f
    have hr : (s.die l).begin_.ready = true := hu.2
    have hf : (s.die l).begin_.readPort src addr.toNat .ok = f (s.die l).begin_ := by
      replace hagg : (s.die l).begin_.part.isAgg = false := hagg
      generalize (s.die l).begin_ = d at hr hagg
      have hw := d.regRead_word src addr.toNat .ok hs hp
      rw [d.readPort_ready hr]
      refine (congrArg (fun r : W32 × Die => r.2.onPart (answer r.1)) hw).trans ?_
      by_cases ha : d.part.accessFault page off false = true
      · rw [if_pos ha]
        exact congrArg (fun p => { d with part := p }) (if_pos ha).symm
      · rw [if_neg ha]
        by_cases ho : off < 0x40
        · rw [if_pos ho]
          exact congrArg (fun p => { d with part := p }) ((if_neg ha).trans (if_pos ho)).symm
        · rw [if_neg ho]
          have h := hread d.blockWord d.part ha ho
          rw [hagg] at h
          exact congrArg (fun p => { d with part := p }) h
    exact ⟨dieDoes_of_powered s l _ _ rfl hu hf, dieDoes_of_powered s l _ _ rfl hu hf⟩
  case right =>
    intro hu hagg hs hp f
    have hf : s.agg.begin_.readBar src addr.toNat .ok = f s.agg.begin_ := by
      replace hagg : s.agg.begin_.part.isAgg = true := hagg
      generalize s.agg.begin_ = g at hagg
      have hdraw (h : page = 0x20 ∧ 0x40 ≤ off ∧ g.part.accessFault page off false = false) :
          f g = g.onPart fun p =>
            { read g.blockWord 0x4124 true p with fresh := (read g.blockWord 0x4124 true p).fresh + 20 } :=
        congrArg (fun p => { g with part := p }) (if_pos h)
      have hplain (h : ¬ (page = 0x20 ∧ 0x40 ≤ off ∧ g.part.accessFault page off false = false)) :
          f g = g.onPart fun p => read g.blockWord 0x4124 true p := congrArg (fun p => { g with part := p }) (if_neg h)
      have hw := g.barRead_word src addr.toNat .ok hs hp
      rw [g.readBar_eq]
      refine (congrArg (fun r : W32 × Agg => r.2.onPart (answer r.1)) hw).trans ?_
      by_cases ha : g.part.accessFault page off false = true
      · rw [if_pos ha, hplain (by simp [ha])]
        exact congrArg (fun p => { g with part := p }) (if_pos ha).symm
      · rw [if_neg ha]
        by_cases ho : off < 0x40
        · rw [if_pos ho, hplain fun h => absurd ho (Nat.not_lt.mpr h.2.1)]
          exact congrArg (fun p => { g with part := p }) ((if_neg ha).trans (if_pos ho)).symm
        · rw [if_neg ho]
          have h := hread g.blockWord g.part ha ho
          rw [hagg] at h
          by_cases hd : page = 0x20
          · rw [hdraw ⟨hd, Nat.not_lt.mp ho, Bool.not_eq_true _ ▸ ha⟩]
            dsimp only
            rw [if_pos hd]
            exact congrArg (fun p : Part => { g with part := { p with fresh := p.fresh + 20 } }) h
          · rw [hplain fun x => hd x.1]
            dsimp only
            rw [if_neg hd]
            exact congrArg (fun p => { g with part := p }) h
    exact ⟨aggDoes_of_ready s rfl hu hf, aggDoes_of_ready s rfl hu hf⟩

end Sys2Proof.Machine
end

section
/-! PROOFS. The indirect ports of a page (R49, R50): O21. -/

namespace Sys2Proof.Machine

open Sys2Proof

/-! ### IND_DATA -/

/-- IND_DATA of every die port is an assigned word of its page, behind the common header (R49). -/
theorem indData_of_indPort {page port : Nat} (h : indPort page = some port) :
    (port + 4) / 0x1000 = page ∧ (port + 4) % 4 = 0 ∧ 0x40 ≤ (port + 4) % 0x1000 ∧
      assigned false page ((port + 4) % 0x1000) = true := by
  unfold indPort at h
  repeat' split at h
  all_goals cases h
  all_goals subst page; decide

/-- The same for BAR0. -/
theorem indData_of_aggPort {page port : Nat} (h : aggPort page = some port) :
    (port + 4) / 0x1000 = page ∧ (port + 4) % 4 = 0 ∧ 0x40 ≤ (port + 4) % 0x1000 ∧
      assigned true page ((port + 4) % 0x1000) = true := by
  unfold aggPort at h
  repeat' split at h
  all_goals cases h
  all_goals subst page; decide

section Data

variable {page port : Nat}

/-- A die's read of IND_DATA is one of the memory, unless an armed ACCESS_ERR turns it away (R47). -/
theorem Die.regRead_data (d : Die) (src : Src) (e : Ecc) (h : indPort page = some port) :
    d.regRead src (port + 4) e =
      if d.part.accessFault page ((port + 4) % 0x1000) false then (0, d.onPart fun p => p.accessErr page (port + 4) 0 false)
      else d.indRead page port e := by
  obtain ⟨hpage, h4, h40, hs⟩ := indData_of_indPort h
  have hoff : (port + 4) % 0x1000 / 4 * 4 = (port + 4) % 0x1000 := by omega
  have hat : page * 0x1000 + (port + 4) % 0x1000 = port + 4 := by omega
  have hc : (dieClass page).isNone = false := pageClass_of_assigned hs
  simp only [Die.regRead, hpage, hoff, hat, hc, hs, h, Nat.not_lt.mpr h40, Bool.not_true, Bool.false_or,
    Bool.false_eq_true, if_true, if_false]

/-- The same for BAR0. -/
theorem Agg.barRead_data (g : Agg) (src : Src) (e : Ecc) (h : aggPort page = some port) :
    g.barRead src (port + 4) e =
      if g.part.accessFault page ((port + 4) % 0x1000) false then (0, g.onPart fun p => p.accessErr page (port + 4) 0 false)
      else g.indRead page port e := by
  obtain ⟨hpage, h4, h40, hs⟩ := indData_of_aggPort h
  have hoff : (port + 4) % 0x1000 / 4 * 4 = (port + 4) % 0x1000 := by omega
  have hat : page * 0x1000 + (port + 4) % 0x1000 = port + 4 := by omega
  have hc : (aggClass page).isNone = false := pageClass_of_assigned hs
  simp only [Agg.barRead, hpage, hoff, hat, hc, hs, h, Nat.not_lt.mpr h40, Bool.not_true, Bool.false_or,
    Bool.false_eq_true, if_true, if_false]

/-- A die's write of IND_DATA. -/
theorem Die.regWrite_data (d : Die) (w : W32) (e : Ecc) (h : indPort page = some port) :
    d.regWrite (port + 4) w e = d.admitted (port + 4) w fun d => d.indWrite page port w e := by
  obtain ⟨hpage, h4, h40, hs⟩ := indData_of_indPort h
  have hoff : (port + 4) % 0x1000 / 4 * 4 = (port + 4) % 0x1000 := by omega
  have hat : page * 0x1000 + (port + 4) % 0x1000 = port + 4 := by omega
  have hc : (dieClass page).isNone = false := pageClass_of_assigned hs
  have hn : ¬ (port + 4) % 0x1000 = 4 := by omega
  have hp : ¬ port + 4 = port := by omega
  simp only [Die.regWrite, Die.admitted, hpage, hoff, hat, hc, hs, h, hn, hp, Nat.not_lt.mpr h40, Bool.not_true,
    Bool.false_or, Bool.false_eq_true, if_true, if_false]

/-- The same for BAR0. -/
theorem Agg.barWrite_data (g : Agg) (w : W32) (e : Ecc) (h : aggPort page = some port) :
    g.barWrite (port + 4) w e = g.admitted (port + 4) w fun g => g.indWrite page port w e := by
  obtain ⟨hpage, h4, h40, hs⟩ := indData_of_aggPort h
  have hoff : (port + 4) % 0x1000 / 4 * 4 = (port + 4) % 0x1000 := by omega
  have hat : page * 0x1000 + (port + 4) % 0x1000 = port + 4 := by omega
  have hc : (aggClass page).isNone = false := pageClass_of_assigned hs
  have hn : ¬ (port + 4) % 0x1000 = 4 := by omega
  have hp : ¬ port + 4 = port := by omega
  simp only [Agg.barWrite, Agg.admitted, hpage, hoff, hat, hc, hs, h, hn, hp, Nat.not_lt.mpr h40, Bool.not_true,
    Bool.false_or, Bool.false_eq_true, if_true, if_false]

end Data

/-! ### The addressed word -/

/-- The byte address of the word a die's port addresses, where SELECT names a memory and IND_ADDR lies inside it (R49). -/
def Die.indAt (d : Die) (page port : Nat) : Option Nat :=
  match indSize page (d.part.fld (port + 8) 8 8) with
  | none => none
  | some n => if n ≤ d.part.num port / 4 * 4 then none else some (d.part.num port / 4 * 4)

/-- The same for BAR0. -/
def Agg.indAt (g : Agg) (page port : Nat) : Option Nat :=
  match aggIndSize page (g.part.fld (port + 8) 8 8) with
  | none => none
  | some n => if n ≤ g.part.num port / 4 * 4 then none else some (g.part.num port / 4 * 4)

/-- What an access does with the check of the word it reads (R49): the word passes, is corrected, or is uncorrectable. -/
def Ecc.pick {α : Type} (e : Ecc) (ok ce ue : α) : α :=
  match e with
  | .ok => ok
  | .ce _ => ce
  | .ue => ue

section Reached

variable (d : Die) (g : Agg) {page port a : Nat} (w : W32) (e : Ecc)

/-- SELECT names no memory, or IND_ADDR lies outside it. -/
theorem Die.indAt_eq_none (h : d.indAt page port = none) (n : Nat)
    (hs : indSize page (d.part.fld (port + 8) 8 8) = some n) : n ≤ d.part.num port / 4 * 4 := by
  by_contra hn
  simp only [Die.indAt, hs, if_neg hn, reduceCtorEq] at h

theorem Agg.indAt_eq_none (h : g.indAt page port = none) (n : Nat)
    (hs : aggIndSize page (g.part.fld (port + 8) 8 8) = some n) : n ≤ g.part.num port / 4 * 4 := by
  by_contra hn
  simp only [Agg.indAt, hs, if_neg hn, reduceCtorEq] at h

/-- SELECT names a memory, and IND_ADDR lies inside it. -/
theorem Die.indAt_eq_some (h : d.indAt page port = some a) : d.part.num port / 4 * 4 = a ∧
    ∃ n, indSize page (d.part.fld (port + 8) 8 8) = some n ∧ ¬ n ≤ a := by
  unfold Die.indAt at h
  cases hs : indSize page (d.part.fld (port + 8) 8 8) with
  | none => simp only [hs, reduceCtorEq] at h
  | some n =>
    simp only [hs, Option.ite_none_left_eq_some, Option.some.injEq] at h
    exact ⟨h.2, n, rfl, h.2 ▸ h.1⟩

theorem Agg.indAt_eq_some (h : g.indAt page port = some a) : g.part.num port / 4 * 4 = a ∧
    ∃ n, aggIndSize page (g.part.fld (port + 8) 8 8) = some n ∧ ¬ n ≤ a := by
  unfold Agg.indAt at h
  cases hs : aggIndSize page (g.part.fld (port + 8) 8 8) with
  | none => simp only [hs, reduceCtorEq] at h
  | some n =>
    simp only [hs, Option.ite_none_left_eq_some, Option.some.injEq] at h
    exact ⟨h.2, n, rfl, h.2 ▸ h.1⟩

/-- A read outside the memory has status 4 (R49). -/
theorem Die.indRead_outside (h : d.indAt page port = none) :
    d.indRead page port e = (0, d.onPart fun p => p.indStat port 4) := by
  cases hs : indSize page (d.part.fld (port + 8) 8 8) with
  | none => simp only [Die.indRead, hs]
  | some n => simp only [Die.indRead, hs, if_pos (d.indAt_eq_none h n hs)]

theorem Agg.indRead_outside (h : g.indAt page port = none) :
    g.indRead page port e = (0, g.onPart fun p => p.indStat port 4) := by
  cases hs : aggIndSize page (g.part.fld (port + 8) 8 8) with
  | none => simp only [Agg.indRead, hs]
  | some n => simp only [Agg.indRead, hs, if_pos (g.indAt_eq_none h n hs)]

/-- A read inside the memory answers by the check of the word (R49). -/
theorem Die.indRead_inside (h : d.indAt page port = some a) :
    d.indRead page port e =
      let sel := d.part.fld (port + 8) 8 8
      let r := { d.part with fresh := d.part.fresh + 1 }.eccRead page (a / 8) (memIdent page sel a) e (portOp page)
      let t := { d with part := r.2 }
      r.1.pick (d.indWord page sel a, t.onPart fun p => (p.indStat port 0).indAdvance page port)
        (d.indWord page sel a, t.onPart fun p => (p.indStat port 1).indAdvance page port)
        (0, (t.indUe page sel a).onPart fun p => (p.indStat port 2).indAdvance page port) := by
  obtain ⟨ha, n, hs, hn⟩ := d.indAt_eq_some h
  simp only [Die.indRead, hs, ha, if_neg hn, Die.onPart]
  generalize { d.part with fresh := d.part.fresh + 1 }.eccRead page (a / 8) (memIdent page _ a) e (portOp page) = r
  cases r.1 <;> rfl

theorem Agg.indRead_inside (h : g.indAt page port = some a) :
    g.indRead page port e =
      let sel := g.part.fld (port + 8) 8 8
      let r := g.part.eccRead page (a / 8) sel e 0
      let t := { g with part := { r.2 with fresh := r.2.fresh + 1 } }
      r.1.pick (g.indWord page sel a, t.onPart fun p => (p.indStat port 0).indAdvance page port)
        (g.indWord page sel a, t.onPart fun p => (p.indStat port 1).indAdvance page port)
        (0, (t.indUe page sel).onPart fun p => (p.indStat port 2).indAdvance page port) := by
  obtain ⟨ha, n, hs, hn⟩ := g.indAt_eq_some h
  simp only [Agg.indRead, hs, ha, if_neg hn]
  generalize g.part.eccRead page (a / 8) _ e 0 = r
  cases r.1 <;> rfl

/-- A 64-bit word stored through a die's port (R50): the lower half `lo` with the upper half `w`. -/
def Die.indCommit (d : Die) (page port sel a : Nat) (lo w : W32) (st : Nat) : Die :=
  (d.indStore page sel (a - 4) (leBytes 4 lo.toNat ++ leBytes 4 w.toNat)).onPart fun p =>
    ((p.modHdr page fun h => { h with heldLower := none }).indStat port st).indAdvance page port

/-- The same through a port of BAR0. -/
def Agg.indCommit (g : Agg) (page port sel a : Nat) (lo w : W32) (st : Nat) : Agg :=
  (g.indStore page sel (a - 4) (leBytes 4 lo.toNat ++ leBytes 4 w.toNat)).onPart fun p =>
    ((p.modHdr page fun h => { h with heldLower := none }).indStat port st).indAdvance page port

/-- A write outside the memory of a page not locked has status 4 (R50). -/
theorem Die.indWrite_outside (hl : (d.part.hdr page).lock = false) (h : d.indAt page port = none) :
    d.indWrite page port w e = d.onPart fun p => p.indStat port 4 := by
  cases hs : indSize page (d.part.fld (port + 8) 8 8) with
  | none => simp only [Die.indWrite, hl, hs, Bool.false_eq_true, if_false]
  | some n => simp only [Die.indWrite, hl, hs, if_pos (d.indAt_eq_none h n hs), Bool.false_eq_true, if_false]

theorem Agg.indWrite_outside (hl : (g.part.hdr page).lock = false) (h : g.indAt page port = none) :
    g.indWrite page port w e = g.onPart fun p => p.indStat port 4 := by
  cases hs : aggIndSize page (g.part.fld (port + 8) 8 8) with
  | none => simp only [Agg.indWrite, hl, hs, Bool.false_eq_true, if_false]
  | some n => simp only [Agg.indWrite, hl, hs, if_pos (g.indAt_eq_none h n hs), Bool.false_eq_true, if_false]

/-- A write inside the memory of a page not locked: refused in use, held as a lower half, or committed as an upper half
with the lower half held, or with the one read where none is held (R50). -/
theorem Die.indWrite_inside (hl : (d.part.hdr page).lock = false) (h : d.indAt page port = some a) :
    d.indWrite page port w e =
      let sel := d.part.fld (port + 8) 8 8
      if d.indInUse page sel (a / 8 * 8) then d.onPart fun p => (p.indStat port 8).indAdvance page port
      else if a % 8 = 0 then d.onPart fun p =>
        ((p.modHdr page fun h => { h with heldLower := some (indKey sel a, w) }).indStat port 0).indAdvance page port
      else
        let r := d.part.eccRead page (a / 8) (memIdent page sel a) e (portOp page)
        let t := { d with part := r.2 }
        (d.part.hdr page).heldLower.elim
          (r.1.pick (t.indCommit page port sel a (t.indWord page sel (a - 4)) w 0)
            (t.indCommit page port sel a (t.indWord page sel (a - 4)) w 1)
            ((t.indUe page sel a).onPart fun p => (p.indStat port 2).indAdvance page port))
          fun k => d.indCommit page port sel a k.2 w 0 := by
  obtain ⟨ha, n, hs, hn⟩ := d.indAt_eq_some h
  simp only [Die.indWrite, hl, hs, ha, if_neg hn, Bool.false_eq_true, if_false]
  refine if_congr Iff.rfl rfl (if_congr Iff.rfl rfl ?_)
  cases (d.part.hdr page).heldLower with
  | some k => rfl
  | none =>
    generalize d.part.eccRead page (a / 8) (memIdent page _ a) e (portOp page) = r
    dsimp only [Option.elim]
    cases r.1 <;> rfl

theorem Agg.indWrite_inside (hl : (g.part.hdr page).lock = false) (h : g.indAt page port = some a) :
    g.indWrite page port w e =
      let sel := g.part.fld (port + 8) 8 8
      if g.indInUse page sel (a / 8 * 8) then g.onPart fun p => (p.indStat port 8).indAdvance page port
      else if a % 8 = 0 then g.onPart fun p =>
        ((p.modHdr page fun h => { h with heldLower := some (indKey sel a, w) }).indStat port 0).indAdvance page port
      else
        let r := g.part.eccRead page (a / 8) sel e 0
        let t := { g with part := r.2 }
        (g.part.hdr page).heldLower.elim
          (r.1.pick (t.indCommit page port sel a (t.indWord page sel (a - 4)) w 0)
            (t.indCommit page port sel a (t.indWord page sel (a - 4)) w 1)
            ((t.indUe page sel).onPart fun p => (p.indStat port 2).indAdvance page port))
          fun k => g.indCommit page port sel a k.2 w 0 := by
  obtain ⟨ha, n, hs, hn⟩ := g.indAt_eq_some h
  simp only [Agg.indWrite, hl, hs, ha, if_neg hn, Bool.false_eq_true, if_false]
  refine if_congr Iff.rfl rfl (if_congr Iff.rfl rfl ?_)
  cases (g.part.hdr page).heldLower with
  | some k => rfl
  | none =>
    generalize g.part.eccRead page (a / 8) _ e 0 = r
    dsimp only [Option.elim]
    cases r.1 <;> rfl

end Reached

/-- Settles O21: the port's page decides whether there is a port, its SELECT and IND_ADDR whether there is a word, and the
check of the word what becomes of it. -/
theorem indirectPortsReadAndWriteWords : Obligations.IndirectPortsReadAndWriteWords := by
  unfold Obligations.IndirectPortsReadAndWriteWords
  intro s l page src w ecc answer passed
  constructor
  case left =>
    intro hu reached
    have hr : (s.die l).begin_.ready = true := hu.2
    refine ⟨dieDoes_of_powered s l _ _ rfl hu ?read, dieDoes_of_powered s l _ _ rfl hu ?write⟩ <;>
      generalize (s.die l).begin_ = d at hr <;> cases hp : indPort page
    case read.none => rfl
    case write.none => rfl
    case read.some port =>
      dsimp only
      rw [d.readPort_ready hr, d.regRead_data src ecc hp]
      by_cases ha : d.part.accessFault page ((port + 4) % 0x1000) false = true
      · simp only [if_pos ha]
        rfl
      · simp only [if_neg ha]
        rw [show reached d port = d.indAt page port from rfl]
        cases hat : d.indAt page port with
        | none => rw [d.indRead_outside ecc hat]; rfl
        | some a =>
          rw [d.indRead_inside ecc hat]
          dsimp only
          generalize Part.eccRead _ _ _ _ ecc _ = r
          cases r.1 <;> rfl
    case write.some port =>
      refine (d.writePort_ready hr _ _ _).trans ((d.regWrite_data w ecc hp).trans (d.admitted_congr _ _ ?_))
      cases hl : (d.part.hdr page).lock with
      | true => simp only [Die.indWrite, hl, if_true]; rfl
      | false =>
        simp only [Bool.false_eq_true, if_false]
        rw [show reached d port = d.indAt page port from rfl]
        cases hat : d.indAt page port with
        | none => exact d.indWrite_outside w ecc hl hat
        | some a =>
          refine (d.indWrite_inside w ecc hl hat).trans (if_congr Iff.rfl rfl (if_congr Iff.rfl rfl ?_))
          cases (d.part.hdr page).heldLower with
          | some k => rfl
          | none =>
            dsimp only [Option.elim]
            generalize d.part.eccRead _ _ _ ecc _ = r
            cases r.1 <;> rfl
  case right =>
    intro hu reached
    refine ⟨aggDoes_of_ready s rfl hu ?barRead, aggDoes_of_ready s rfl hu ?barWrite⟩ <;>
      generalize s.agg.begin_ = g <;> cases hp : aggPort page
    case barRead.none => rfl
    case barWrite.none => rfl
    case barRead.some port =>
      dsimp only
      rw [g.readBar_eq, g.barRead_data src ecc hp]
      by_cases ha : g.part.accessFault page ((port + 4) % 0x1000) false = true
      · simp only [if_pos ha]
        rfl
      · simp only [if_neg ha]
        rw [show reached g port = g.indAt page port from rfl]
        cases hat : g.indAt page port with
        | none => rw [g.indRead_outside ecc hat]; rfl
        | some a =>
          rw [g.indRead_inside ecc hat]
          dsimp only
          generalize g.part.eccRead _ _ _ ecc _ = r
          cases r.1 <;> rfl
    case barWrite.some port =>
      refine (g.barWrite_data w ecc hp).trans (g.admitted_congr _ _ ?_)
      cases hl : (g.part.hdr page).lock with
      | true => simp only [Agg.indWrite, hl, if_true]; rfl
      | false =>
        simp only [Bool.false_eq_true, if_false]
        rw [show reached g port = g.indAt page port from rfl]
        cases hat : g.indAt page port with
        | none => exact g.indWrite_outside w ecc hl hat
        | some a =>
          refine (g.indWrite_inside w ecc hl hat).trans (if_congr Iff.rfl rfl (if_congr Iff.rfl rfl ?_))
          cases (g.part.hdr page).heldLower with
          | some k => rfl
          | none =>
            dsimp only [Option.elim]
            generalize g.part.eccRead _ _ _ ecc _ = r
            cases r.1 <;> rfl

end Sys2Proof.Machine
end

section
/-! PROOFS. The discipline inputs of a die (R59–R65, R77): O27. -/

namespace Sys2Proof.Machine

open Sys2Proof

/-! ### SERVO_EN -/

/-- The row of SERVO_CTL: SERVO_EN, and the command bits ARM_RESTEP and DISARM (R78). -/
def servoRow : RegSpec :=
  ⟨0x04C, 1, 0x0, [1], .one, [⟨0, 1, .rw, false, 0, 1⟩, ⟨1, 1, .wo, false, 0, 1⟩, ⟨2, 1, .wo, false, 0, 1⟩]⟩

theorem specOf_servo : specOf false (0x104C / 0x1000) (0x104C % 0x1000) = some (servoRow, 0) := rfl

/-- SERVO_EN as the lowest bit of its word. -/
theorem Part.bit_servo (p : Part) (on : Bool) : p.bit 0x104C 0 = on ↔ p.num 0x104C % 2 = b2n on := by
  have h : p.bit 0x104C 0 = (p.num 0x104C % 2 == 1) := by
    simp only [Part.bit, Part.fld, Part.num, bitsOf, Nat.pow_zero, Nat.div_one, Nat.pow_one]
  rw [h]
  cases on
  · simp [b2n]
  · simp [b2n]

/-- The word SERVO_EN_WRITE writes holds its bit, and no command bit. -/
theorem servoWord_eq (p : Part) (on : Bool) : withBits (p.kept false 0x104C) 0 1 (b2n on) = BitVec.ofNat 32 (b2n on) := by
  have hk : p.kept false 0x104C = BitVec.ofNat 32 (p.num 0x104C % 2) := by
    simp only [Part.kept, specOf_servo, servoRow]
    simp [Part.fld, Part.num, bitsOf]
  have h2 : p.num 0x104C % 2 < 2 := Nat.mod_lt _ (by decide)
  rw [hk]
  generalize p.num 0x104C % 2 = x at h2
  have hb : b2n on < 2 := by cases on <;> decide
  generalize b2n on = y at hb
  interval_cases x <;> interval_cases y <;> rfl

theorem servoWord_toNat (on : Bool) : (BitVec.ofNat 32 (b2n on)).toNat = b2n on := by cases on <;> rfl

/-- A write of SERVO_EN alone takes its bit. -/
theorem mergeWord_servo (old : Nat) (on : Bool) : mergeWord servoRow old (b2n on) = old - old % 2 + b2n on := by
  cases on <;> simp [mergeWord, servoRow, bitsOf, b2n]

/-- Such a write is refused where it would change a locked page (R38). -/
theorem refused_servo (lock fixed : Bool) (old : Nat) (on : Bool) :
    servoRow.fields.any (fieldRefused lock fixed old (b2n on)) = (old % 2 != b2n on && lock) := by
  cases on <;> simp [servoRow, fieldRefused, bitsOf, b2n]

/-- The word a write of SERVO_EN leaves is the word with that bit set. -/
theorem Part.setNum_servo (p : Part) (on : Bool) :
    p.setNum 0x104C (p.num 0x104C - p.num 0x104C % 2 + b2n on) = p.setBit 0x104C 0 on := by
  cases on <;> simp [Part.setNum, Part.setBit, Part.setFld, withBits, bitsOf, b2n, Part.num]

theorem Part.bit_setBit_servo (p : Part) (on : Bool) (hw : swf (resetWord p.isAgg) p.regs = true) :
    (p.setBit 0x104C 0 on).bit 0x104C 0 = on := by
  rw [Part.bit_servo, ← p.setNum_servo on, Part.num, Part.setNum, p.rd_wr_same _ _ hw, BitVec.toNat_ofNat]
  have hb : b2n on < 2 := by cases on <;> decide
  omega

/-- SERVO_EN_WRITE on the register (R38, R64): nothing where the bit stays, refused where the page is locked. -/
theorem Die.blockWrite_servo (d : Die) (on : Bool) (hw : swf (resetWord d.part.isAgg) d.part.regs = true) :
    d.blockWrite 0x104C (BitVec.ofNat 32 (b2n on)) =
      if d.part.bit 0x104C 0 = on then d
      else if (d.part.hdr 1).lock then d.onPart fun p => p.accessErr 1 0x104C (BitVec.ofNat 32 (b2n on)) true
      else (d.onPart fun p => p.setBit 0x104C 0 on).servoWrite on := by
  have hmask : d.maskWrite 0x104C (BitVec.ofNat 32 (b2n on)) = some (BitVec.ofNat 32 (b2n on)) := rfl
  have href (n : Nat) (w : W32) : d.writeRefused 0x104C (d.part.num 0x104C) n w = false := rfl
  have hx : Die.cmdConflict 0x104C (BitVec.ofNat 32 (b2n on)) = false := by cases on <;> decide
  have h1 : wbit (BitVec.ofNat 32 (b2n on)) 1 = false := by cases on <;> decide
  have h2 : wbit (BitVec.ofNat 32 (b2n on)) 2 = false := by cases on <;> decide
  have e : (d.part.rd 0x104C).toNat = d.part.num 0x104C := rfl
  have h48 : ¬ ((0x104C : Nat) = 0x18048 ∨ (0x104C : Nat) = 0x18088) := by decide
  have hlock (b : Bool) : (b && !((0x104C : Nat) == 0x8068 || (0x104C : Nat) == 0x8070)) = b := Bool.and_true b
  unfold Die.blockWrite
  simp only [specOf_servo, hmask, e, servoWord_toNat, mergeWord_servo, refused_servo, href, hx, Bool.or_false,
    Bool.false_eq_true, if_false]
  by_cases hon : d.part.bit 0x104C 0 = on
  · have hold := (d.part.bit_servo on).mp hon
    have hkeep : d.part.num 0x104C = d.part.num 0x104C - d.part.num 0x104C % 2 + b2n on := by omega
    have hne : (d.part.num 0x104C % 2 != b2n on) = false := by simp [hold]
    have hact : d.writeActs 0x104C (d.part.num 0x104C) (BitVec.ofNat 32 (b2n on)) = d := by
      simp only [Die.writeActs, Part.testBit_bit]
      simp [dieClass, h1, h2]
    simp only [if_pos hon, hne, ← hkeep, h48, Bool.false_and, Bool.false_eq_true, if_true, if_false]
    exact hact
  · have hold := mt (d.part.bit_servo on).mpr hon
    have hch : ¬ d.part.num 0x104C = d.part.num 0x104C - d.part.num 0x104C % 2 + b2n on := by omega
    have hne : (d.part.num 0x104C % 2 != b2n on) = true := by simp [hold]
    simp only [if_neg hon, hne, if_neg hch, Bool.true_and]
    refine if_congr (by rw [hlock]) rfl ?_
    rw [if_neg h48]
    have hset : (d.onPart fun p => p.setNum 0x104C (d.part.num 0x104C - d.part.num 0x104C % 2 + b2n on)) =
        d.onPart fun p => p.setBit 0x104C 0 on := congrArg (fun p => { d with part := p }) (d.part.setNum_servo on)
    have hchg : ((d.part.num 0x104C).testBit 0 != on) = true := by
      rw [Nat.testBit_zero]
      cases on <;> simpa [b2n] using hold
    simp only [hset, Die.writeActs, Die.onPart_part, d.part.bit_setBit_servo on hw, hchg]
    simp [dieClass, h1, h2]

/-! ### The inputs -/

/-- Settles O27: the inputs of the discipline table act as they stand; ARM_RESTEP and DISARM are command bits of SERVO_CTL,
SERVO_EN a field of it. -/
theorem disciplineInputsOfADie : Obligations.DisciplineInputsOfADie := by
  unfold Obligations.DisciplineInputsOfADie
  intro s l hu
  have hr : (s.die l).begin_.ready = true := hu.2
  refine ⟨dieDoes_of_ready s l _ _ rfl hu rfl, dieDoes_of_ready s l _ _ rfl hu rfl,
    dieDoes_of_ready s l _ _ rfl hu ?incomplete, dieDoes_of_ready s l _ _ rfl hu ?hold,
    dieDoes_of_powered s l _ _ rfl hu (Die.strobe_armRestep _ hr), dieDoes_of_powered s l _ _ rfl hu (Die.strobe_disarm _ hr),
    fun on hw => dieDoes_of_powered s l _ _ rfl hu ?servo⟩
  case incomplete => exact if_congr Bool.not_eq_eq_eq_not rfl rfl
  case hold => exact if_congr (by rw [Bool.and_eq_true, beq_iff_eq]) rfl rfl
  case servo =>
    replace hw : swf (resetWord (s.die l).begin_.part.isAgg) (s.die l).begin_.part.regs = true := hw
    generalize (s.die l).begin_ = d at hr hw
    simp only [Die.access, hr, if_true]
    rw [servoWord_eq, d.regWrite_block 0x104C _ .ok rfl (by decide)]
    exact d.admitted_congr _ _ (d.blockWrite_servo on hw)

end Sys2Proof.Machine
end

section
/-! PROOFS. Windows and the trigger pool (R68–R72): O30. Deadlines, hangs and abandoned exchanges (R85–R99): O31. -/

namespace Sys2Proof.Machine

open Sys2Proof

/-! ### Windows -/

/-- SWITCH_ARM is refused while a switch is pending, for a boundary before the base, off the grid or nearer than 1 ms, and
for a length out of range (R69). -/
theorem Die.switchArm_refused_iff (d : Die) (nb b len grid : Nat) :
    (d.switchPending || decide (nb < b) || decide ((nb - b) % max 1 grid ≠ 0) ||
        decide (nb * 4294967296 < d.part.time.toNat + 1000000 * 4294967296) || decide (len < 1000 ∨ 10000000 < len)) = true ↔
      ¬ (d.part.bit 0x10B8 1 = false ∧ b ≤ nb ∧ (nb - b) % max 1 grid = 0 ∧
        d.part.time.toNat + 1000000 * 4294967296 ≤ nb * 4294967296 ∧ 1000 ≤ len ∧ len ≤ 10000000) := by
  simp only [Die.switchPending, Bool.or_eq_true, decide_eq_true_eq, not_and_or, Bool.not_eq_false, Nat.not_le, or_assoc, ne_eq]

/-- Settles O30: a boundary and a due event act as they stand; SWITCH_ARM is a command bit whose guards are the statement's. -/
theorem windowsAndTheTriggerPool : Obligations.WindowsAndTheTriggerPool := by
  unfold Obligations.WindowsAndTheTriggerPool
  intro s l ss hu
  have hr : (s.die l).begin_.ready = true := hu.2
  refine ⟨dieDoes_of_ready s l _ _ rfl hu rfl, dieDoes_of_powered s l _ _ rfl hu ?arm,
    dieDoes_of_powered s l _ _ rfl hu rfl⟩
  generalize (s.die l).begin_ = d at hr
  exact (d.strobe_switchArm hr).trans (d.admitted_congr _ _
    ((if_congr (d.switchArm_refused_iff _ _ _ _) rfl rfl).trans (ite_not _ _ _)))

/-! ### Deadlines -/

/-- Settles O31: misses, hangs and abandoned exchanges act as they stand, and BASE_CLEAR is a command bit. -/
theorem deadlinesHangsAndAdapters : Obligations.DeadlinesHangsAndAdapters := by
  unfold Obligations.DeadlinesHangsAndAdapters
  intro s l page stage unit missed
  refine ⟨fun hu group port phase what => ⟨dieDoes_of_ready s l _ _ rfl hu rfl, dieDoes_of_ready s l _ _ rfl hu rfl,
    dieDoes_of_ready s l _ _ rfl hu rfl, dieDoes_of_powered s l _ _ rfl hu ?clear⟩,
    fun hu => ⟨aggDoes_of_ready s rfl hu rfl, aggDoes_of_ready s rfl hu rfl⟩⟩
  exact Die.strobe_baseClear _ hu.2

end Sys2Proof.Machine
end

section
/-! PROOFS. Step markers and stored records of Spring (R106–R117): O33. Programs and features of Riffle (R126–R140): O34. -/

namespace Sys2Proof.Machine

open Sys2Proof

/-! ### Stored records -/

section Stored

variable (d : Die) (f : Nat) (r : Rec) (rs : List Rec) (es : List Ecc)

/-- With the step store empty nothing is sent (R109). -/
theorem Die.sendStored_nil (h : d.spring.stepStore = []) : Die.sendStored f d = d := by
  cases f with
  | zero => rfl
  | succ f => simp only [Die.sendStored, h]

/-- The oldest stored step record is handed on, marked HELD, while Sluice accepts it (R109). -/
theorem Die.sendStored_cons (h : d.spring.stepStore = r :: rs) :
    Die.sendStored (f + 1) d = (d.handStep { r with bytes := patchFlags r.bytes 0x80 }).elim d
      fun e => Die.sendStored f (e.onSpring fun s => { s with stepStore := rs }).noteStepHeld := by
  simp only [Die.sendStored, h]
  cases d.handStep { r with bytes := patchFlags r.bytes 0x80 } <;> rfl

/-- With the retention store empty nothing is sent (R117). -/
theorem Die.sendRetained_nil (h : d.spring.retention = []) : Die.sendRetained f es d = d := by
  cases f with
  | zero => rfl
  | succ f => simp only [Die.sendRetained, h]

end Stored

/-- Settles O33: markers and closed windows act as they stand; the stored records by whether there is one. -/
theorem stepMarkersAndStoredRecords : Obligations.StepMarkersAndStoredRecords := by
  unfold Obligations.StepMarkersAndStoredRecords
  intro s l m at_ lost es hu
  refine ⟨dieDoes_of_ready s l _ _ rfl hu rfl, dieDoes_of_ready s l _ _ rfl hu rfl, dieDoes_of_ready s l _ _ rfl hu rfl,
    dieDoes_of_ready s l _ _ rfl hu rfl, fun d f => d.sendStored_nil f, fun d f r rs h => ?stored,
    fun d f => d.sendRetained_nil f es, fun d f r rs h => ?retained⟩
  case stored =>
    rw [d.sendStored_cons f r rs h]
    cases d.handStep { r with bytes := patchFlags r.bytes 0x80 } <;> rfl
  case retained =>
    simp only [Die.sendRetained, h]
    exact if_congr Option.isNone_iff_eq_none rfl rfl

/-! ### Riffle -/

/-- SWAP_ARM is refused without a valid spare, while a swap is pending or the old bank busy, on a locked page, and for a
window that has come (R134). -/
theorem Die.rifArm_refused_iff (d : Die) (i : Nat) :
    (!d.part.bit 0x9044 3 || d.rifPending || d.rifOldBusy || (d.part.hdr 9).lock ||
        (decide (i ≠ 0) && decide (i ≤ d.spring.window.index))) = true ↔
      ¬ (d.part.bit 0x9044 3 = true ∧ d.part.bit 0x9044 1 = false ∧ d.part.bit 0x9044 2 = false ∧
        (d.part.hdr 9).lock = false ∧ (i = 0 ∨ d.spring.window.index < i)) := by
  simp only [Die.rifPending, Die.rifOldBusy, Bool.or_eq_true, Bool.and_eq_true, Bool.not_eq_true', decide_eq_true_eq, not_and_or, not_or,
    Bool.not_eq_true, Bool.not_eq_false, Nat.not_lt, or_assoc, ne_eq]

/-- Settles O34: the two commands on CTL are its bits, and the events act as they stand. -/
theorem riffleProgramsAndFeatures : Obligations.RiffleProgramsAndFeatures := by
  unfold Obligations.RiffleProgramsAndFeatures
  intro s l word ecc hu
  have hr : (s.die l).begin_.ready = true := hu.2
  refine ⟨dieDoes_of_powered s l _ _ rfl hu (Die.strobe_rifValidate _ hr), dieDoes_of_ready s l _ _ rfl hu ?validated,
    dieDoes_of_powered s l _ _ rfl hu ?arm, dieDoes_of_ready s l _ _ rfl hu ?features⟩ <;>
    generalize (s.die l).begin_ = d at hr
  case validated => exact if_congr Bool.not_eq_eq_eq_not rfl rfl
  case arm =>
    exact (d.strobe_rifArm hr).trans (d.admitted_congr _ _ ((if_congr (d.rifArm_refused_iff _) rfl rfl).trans (ite_not _ _ _)))
  case features =>
    unfold Die.featuresReady
    cases d.riffle.queue with
    | nil => rfl
    | cons j rest =>
      refine if_congr (by rw [Bool.or_eq_true, beq_iff_eq]) rfl ?_
      exact if_congr Iff.rfl (if_congr decide_eq_true_iff rfl rfl) rfl

end Sys2Proof.Machine
end

section
/-! PROOFS. Models and scores of Eddy (R153–R167): O35. -/

namespace Sys2Proof.Machine

open Sys2Proof

/-- A write of EDDY's CTL, which holds nothing but commands: SWAP_ARM goes before VALIDATE (R158, R160). -/
theorem Die.writePort_eddyCtl (d : Die) (h : d.ready = true) (w : W32) :
    d.writePort 0x10040 w .ok = d.admitted 0x10040 w fun d =>
      if wbit w 0 then d.edArm w else if wbit w 1 then d.edValidate (bitsOf w.toNat 2 2) w else d := by
  rw [d.writePort_ready h, d.regWrite_block 0x10040 _ .ok rfl (by decide)]
  refine d.admitted_congr _ _ ((d.blockWrite_wo 0x10040 _ _ _ rfl (by decide) rfl rfl rfl (by decide)).trans ?_)
  simp [Die.writeActs, dieClass]

/-- EDDY's CTL keeps nothing, so the word EDDY_VALIDATE writes is its own bits. -/
theorem eddyValidate_word (p : Part) (slot : Fin 4) :
    p.kept false 0x10040 ||| BitVec.ofNat 32 (2 + 4 * slot.val) = BitVec.ofNat 32 (2 + 4 * slot.val) := by
  have hk : p.kept false 0x10040 = 0 := rfl
  rw [hk]
  exact BitVec.zero_or

/-- The command bits and the slot of that word. -/
theorem eddyValidate_bits (slot : Fin 4) :
    wbit (BitVec.ofNat 32 (2 + 4 * slot.val)) 0 = false ∧ wbit (BitVec.ofNat 32 (2 + 4 * slot.val)) 1 = true ∧
      bitsOf (BitVec.ofNat 32 (2 + 4 * slot.val)).toNat 2 2 = slot.val := by
  revert slot
  decide

/-- SWAP_ARM of the word EDDY_SWAP_ARM writes. -/
theorem wbit_or_one (w : W32) : wbit (w ||| 1) 0 = true := by
  simp [wbit, BitVec.toNat_or]

/-- Settles O35: the two commands on CTL are its bits, and the events act as they stand. -/
theorem eddyModelsAndScores : Obligations.EddyModelsAndScores := by
  unfold Obligations.EddyModelsAndScores
  intro s l slot word ecc w times reads hu
  have hr : (s.die l).begin_.ready = true := hu.2
  refine ⟨dieDoes_of_powered s l _ _ rfl hu ?validate, dieDoes_of_ready s l _ _ rfl hu ?validated,
    dieDoes_of_powered s l _ _ rfl hu ?arm, dieDoes_of_ready s l _ _ rfl hu ?scores⟩ <;>
    generalize (s.die l).begin_ = d at hr
  case validate =>
    obtain ⟨h0, h1, hslot⟩ := eddyValidate_bits slot
    refine (d.strobe_ready hr _ _).trans ?_
    refine ((d.writePort_ready hr _ _ _).symm.trans (d.writePort_eddyCtl hr _)).trans (d.admitted_congr _ _ ?_)
    simp only [eddyValidate_word, h0, h1, hslot, Bool.false_eq_true, if_true, if_false]
    rfl
  case validated => exact if_congr Bool.not_eq_eq_eq_not rfl rfl
  case arm => exact (d.writePort_eddyCtl hr _).trans (d.admitted_congr _ _ (if_pos (wbit_or_one w)))
  case scores =>
    unfold Die.scoresDelivered
    cases d.eddy.queue with
    | nil => rfl
    | cons j rest => exact if_congr beq_iff_eq rfl rfl

end Sys2Proof.Machine
end

section
/-! PROOFS. Self-tests and requests of Gauge (R172–R196): O37. -/

namespace Sys2Proof.Machine

open Sys2Proof

/-- What a command taken by a powered die does is what its row says: the converse of `dieDoes_of_powered`. -/
theorem DieDoes.finish_eq {s : State} {l : Lane} {c : Instr} {f g : Die → Die} (h : DieDoes s c l f)
    (hx : exec c s = s.diePowered l g) (hu : (s.die l).Up) :
    (g (s.die l).begin_).finish = (f (s.die l).begin_).finish := by
  rw [DieDoes, hx, s.diePowered_up l g hu.1] at h
  simpa using congrArg (fun t : State => t.die l) (Host.Outcome.next.inj h)

/-- A state whose die 0 is up, GAUGE locked and OP_TAP_EN at 1 though no operand tap is tied. -/
def lockedTapState : State := State.reset.onDie 0 fun d =>
  { d with powered := true, ready := true
           part := (d.part.setBit 0x18040 2 true).modHdr 0x18 fun h => { h with lock := true } }

/-- Refutes O37: a write of CTL with REPLAY_GO would also clear OP_TAP_EN where no tap is tied (R421), which R38 refuses on a
locked page; the statement starts the replay all the same. -/
theorem not_selfTestsOfEnginesAndReference : ¬ Obligations.SelfTestsOfEnginesAndReference := by
  unfold Obligations.SelfTestsOfEnginesAndReference
  intro h
  have hu : (lockedTapState.die 0).Up := by unfold Die.Up; decide
  obtain ⟨-, -, -, hreplay, -⟩ := h lockedTapState 0 0 0 0 0 0 false 0 [] [] [] hu
  have hd := congrArg (fun d => d.gauge.nextId) (hreplay.finish_eq rfl hu)
  exact absurd hd (by decide)

end Sys2Proof.Machine
end

section
/-! PROOFS. Verdicts and disputes of Oxbow (R207–R213): O39. -/

namespace Sys2Proof.Machine

open Sys2Proof

/-! ### Verdicts -/

/-- A write of VERDICT_CTL, which holds nothing but commands, is a verdict. -/
theorem Die.writePort_verdictCtl (d : Die) (h : d.ready = true) (w : W32) :
    d.writePort 0x806C w .ok = d.admitted 0x806C w fun d => d.verdict w := by
  rw [d.writePort_ready h, d.regWrite_block 0x806C _ .ok rfl (by decide)]
  refine d.admitted_congr _ _ ((d.blockWrite_wo 0x806C _ _ _ rfl (by decide) rfl rfl rfl (by decide)).trans ?_)
  simp [Die.writeActs, dieClass]

/-- The word of a verdict: the tag below, the code above. -/
structure VerdictWord (w : W32) (tag : W16) (code : Nat) : Prop where
  tag_eq : bitsOf w.toNat 0 16 = tag.toNat
  code_eq : bitsOf w.toNat 16 2 = code
  high_eq : w.toNat / 65536 = code

theorem verdictWord (tag : W16) (c : Nat) (hc : c < 4) : VerdictWord (BitVec.ofNat 32 (tag.toNat + 65536 * c)) tag c := by
  have ht := tag.isLt
  have hw : (BitVec.ofNat 32 (tag.toNat + 65536 * c)).toNat = tag.toNat + 65536 * c := by
    rw [BitVec.toNat_ofNat]
    omega
  refine ⟨?_, ?_, ?_⟩ <;> rw [hw]
  · unfold bitsOf
    omega
  · unfold bitsOf
    omega
  · omega

/-- A verdict refused names its tag and its code (R207). -/
theorem Die.verdictRefuse_word {w : W32} {tag : W16} {code : Nat} (h : VerdictWord w tag code) (d : Die) (cause : Nat) :
    d.verdictRefuse w cause = d.onPart fun p =>
      ((p.accessErrOp 8 0x806C w true 2).inc 0x8094).raise 8 20
        { opCode := 2
          detail := leBytes 4 (p.num 0x8068) ++ leBytes 2 tag.toNat ++ leBytes 1 (w.toNat / 65536) ++ leBytes 1 cause } := by
  rw [h.high_eq]
  simp only [Die.verdictRefuse, h.tag_eq, h.code_eq]

/-- The HELD slot a verdict names (R207): of VERDICT_STEP, and none on a FAULTED page. -/
def Die.verdictSlot (d : Die) : Option Nat :=
  if d.part.pstate 8 = .faulted then none
  else d.oxbow.order.find? fun s => d.oxState s == 3 && d.oxStep s == d.part.num 0x8068

/-- A release (R207). -/
theorem Die.verdict_release {w : W32} {tag : W16} (h : VerdictWord w tag 1) (d : Die) :
    d.verdict w = match d.verdictSlot with
      | none => d.verdictRefuse w 1
      | some s =>
        if d.part.fld (oxAddr s + 4) 16 16 ≠ tag.toNat then d.verdictRefuse w 2
        else if d.disputed then d.verdictRefuse w 3 else d.oxRelease s false := by
  unfold Die.verdict Die.verdictSlot
  simp only [h.tag_eq, h.code_eq]
  cases (if d.part.pstate 8 = .faulted then none
    else d.oxbow.order.find? fun s => d.oxState s == 3 && d.oxStep s == d.part.num 0x8068) <;> rfl

/-- A discard (R208). -/
theorem Die.verdict_discard {w : W32} {tag : W16} (h : VerdictWord w tag 2) (d : Die) :
    d.verdict w = match d.verdictSlot with
      | none => d.verdictRefuse w 1
      | some s =>
        if d.part.fld (oxAddr s + 4) 16 16 ≠ tag.toNat then d.verdictRefuse w 2
        else
          let m := min 0xFFFFFFFF ((d.lastMarker.getD (d.part.num 0x8068)) + 1)
          let d := d.onOx fun o => { o with follow := some (match o.follow with | some f => max f m | none => m) }
          (d.onPart fun p => p.setNum 0x8054 (max (p.num 0x8054) m)).oxDiscard s := by
  unfold Die.verdict Die.verdictSlot
  simp only [h.tag_eq, h.code_eq]
  cases (if d.part.pstate 8 = .faulted then none
    else d.oxbow.order.find? fun s => d.oxState s == 3 && d.oxStep s == d.part.num 0x8068) <;> rfl

/-! ### Disputes -/

/-- A dispute signal merges its path into a dispute of the same tag, and else sets a new one (R211). -/
theorem Die.dispute_merge_iff (d : Die) (tag : Nat) :
    (d.disputed && d.part.fld 0x8044 16 16 == tag) = true ↔ d.part.bit 0x8044 3 = true ∧ d.part.fld 0x8044 16 16 = tag := by
  rw [Bool.and_eq_true, beq_iff_eq]
  rfl

/-- DISPUTE_CLR is refused but of the dispute DISPUTE_ARG names (R213; log entry 65). -/
theorem Die.disputeClr_refused_iff (d : Die) :
    (!d.disputed || d.part.fld 0x8044 16 16 != d.part.fld 0x8070 0 16) = true ↔
      ¬ (d.part.bit 0x8044 3 = true ∧ d.part.fld 0x8044 16 16 = d.part.fld 0x8070 0 16) := by
  rw [Bool.or_eq_true, Bool.not_eq_true', bne_iff_ne, not_and_or, Bool.not_eq_true]
  rfl

/-- RELEASE_HELD acts outside FAULTED (R213). -/
theorem Die.releaseHeld_iff (d : Die) (w : W32) :
    (wbit w 5 && d.part.pstate 8 != .faulted) = true ↔ wbit w 5 = true ∧ d.part.pstate 8 ≠ .faulted := by
  rw [Bool.and_eq_true, bne_iff_ne]

/-- The word DISPUTE_CLR writes sets that bit, and leaves the others. -/
theorem disputeClrWord (w : W32) : wbit (w ||| 0x10) 4 = true := by
  rw [wbit, BitVec.toNat_or, Nat.testBit_or]
  exact Bool.or_true _

/-- A write of OXBOW's CTL with DISPUTE_CLR set: refused for a field (R38), or where DISPUTE_SET goes with it (R47). -/
theorem Die.blockWrite_disputeClr (d : Die) (w : W32) (hw : wbit w 4 = true) (r : RegSpec) (i : Nat)
    (hs : specOf false 8 0x40 = some (r, i)) :
    d.blockWrite 0x8040 w =
      if r.fields.any (fieldRefused ((d.part.hdr 8).lock) (d.part.pstate 8 != .off) (d.part.num 0x8040) w.toNat) then
        d.onPart fun p => p.accessErr 8 0x8040 w true
      else if wbit w 3 then d.onPart fun p => p.cmdErrOp 8 w.toNat 3
      else (if d.part.num 0x8040 = mergeWord r (d.part.num 0x8040) w.toNat then d
        else d.onPart fun p => p.setNum 0x8040 (mergeWord r (d.part.num 0x8040) w.toNat)).disputeClr w := by
  have hs' : specOf false (0x8040 / 0x1000) (0x8040 % 0x1000) = some (r, i) := hs
  have hmask : d.maskWrite 0x8040 w = some w := rfl
  have href (o n : Nat) : d.writeRefused 0x8040 o n w = false := rfl
  have hfix : d.staticFixed 0x8040 = (d.part.pstate 8 != .off) := rfl
  have hlock : ((d.part.hdr (0x8040 / 0x1000)).lock && !((0x8040 : Nat) == 0x8068 || (0x8040 : Nat) == 0x8070)) =
      (d.part.hdr 8).lock := Bool.and_true _
  have hx : Die.cmdConflict 0x8040 w = wbit w 3 := by simp [Die.cmdConflict, hw]
  have e : (d.part.rd 0x8040).toNat = d.part.num 0x8040 := rfl
  have hacts (d' : Die) (h3 : wbit w 3 = false) : d'.writeActs 0x8040 (d.part.num 0x8040) w = d'.disputeClr w := by
    simp [Die.writeActs, dieClass, hw, h3]
  unfold Die.blockWrite
  simp only [hs', hmask, href, hfix, hlock, hx, e, Bool.or_false]
  refine if_congr Iff.rfl rfl ?_
  cases h3 : wbit w 3 with
  | true => rfl
  | false =>
    simp only [hacts _ h3]
    rfl

/-- Settles O39: VERDICT_CTL holds nothing but commands, DISPUTE_CLR is a write of CTL, and the rest act as they stand. -/
theorem verdictsAndDisputes : Obligations.VerdictsAndDisputes := by
  unfold Obligations.VerdictsAndDisputes
  intro s l tag h t unit w hu held refused dispute
  have hr : (s.die l).begin_.ready = true := hu.2
  have hdispute (d : Die) (t u src : Nat) : d.dispute t u src = dispute d t u src :=
    if_congr (d.dispute_merge_iff t) rfl rfl
  refine ⟨dieDoes_of_powered s l _ _ rfl hu ?release, dieDoes_of_powered s l _ _ rfl hu ?discard,
    dieDoes_of_powered s l _ _ rfl hu ?set, dieDoes_of_ready s l _ _ rfl hu ?cell,
    fun r i hs => dieDoes_of_powered s l _ _ rfl hu ?clear⟩ <;> generalize (s.die l).begin_ = d at hr
  case release =>
    have h : VerdictWord (BitVec.ofNat 32 (tag.toNat + 65536)) tag 1 := verdictWord tag 1 (by decide)
    refine (d.writePort_verdictCtl hr _).trans (d.admitted_congr _ _ ((d.verdict_release h).trans ?_))
    simp only [Die.verdictRefuse_word h]
    rfl
  case discard =>
    have h : VerdictWord (BitVec.ofNat 32 (tag.toNat + 131072)) tag 2 := verdictWord tag 2 (by decide)
    refine (d.writePort_verdictCtl hr _).trans (d.admitted_congr _ _ ((d.verdict_discard h).trans ?_))
    simp only [Die.verdictRefuse_word h]
    rfl
  case set =>
    exact (d.strobe_disputeSet hr).trans (d.admitted_congr _ _ (hdispute ..))
  case cell =>
    have hstands : (d.cellIn h 6 (some 8)).1 = true ↔ ¬ (d.cellIn h 6 (some 8)).1 = false := by rw [Bool.not_eq_false]
    have hunit : (decide (unit < 640) || unit == 0x3FF) = true ↔ unit < 640 ∨ unit = 0x3FF := by
      rw [Bool.or_eq_true, decide_eq_true_iff, beq_iff_eq]
    exact (ite_skip hstands rfl).trans (if_congr Iff.rfl rfl (if_congr hunit (hdispute ..) rfl))
  case clear =>
    refine (d.writePort_ready hr _ _ _).trans ((d.regWrite_block 0x8040 _ .ok rfl (by decide)).trans ?_)
    refine d.admitted_congr _ _ ((d.blockWrite_disputeClr _ (disputeClrWord w) r i hs).trans ?_)
    refine if_congr Iff.rfl rfl (if_congr Iff.rfl rfl ?_)
    exact ite_skip (Die.disputeClr_refused_iff _) (if_congr (Die.releaseHeld_iff ..) rfl rfl)

end Sys2Proof.Machine
end

section
/-! PROOFS. Pair frames, votes and launches of Bore (R219–R238): O40. -/

namespace Sys2Proof.Machine

open Sys2Proof

/-- A register launch is refused but for an allowed type and scope, in a partition, by an ACTIVE page whose launches are not
blocked (R238). -/
theorem launch_refused_iff (typ scope part : Nat) (blocked active : Bool) :
    (!(typ == 1 || typ == 2 || typ == 8 || typ == 9) || scope == 3 || part == 0xFFFF || blocked || !active) = true ↔
      ¬ ((typ = 1 ∨ typ = 2 ∨ typ = 8 ∨ typ = 9) ∧ scope ≠ 3 ∧ part ≠ 0xFFFF ∧ blocked = false ∧ active = true) := by
  simp only [Bool.or_eq_true, Bool.not_eq_true', ← Bool.not_eq_true, beq_iff_eq, ne_eq]
  tauto

/-- A gap in LINK_SEQ counts only for a copy that is up (R222). -/
theorem gap_counts_iff (w seq : Nat) (up : Bool) : w = seq ∨ (!up) = true ↔ w = seq ∨ up = false := by
  rw [Bool.not_eq_true']

/-- Two guards of one action, the second within the first. -/
theorem ite_ite_same {α : Type} (p q : Bool) (x y : α) : (if p then (if q then x else y) else y) = if p && q then x else y := by
  cases p <;> rfl

/-- The lane's LINK_SEQ step (R222). -/
theorem Die.frameSeq_eq (d : Die) (c seq : Nat) : d.frameSeq c seq =
      let want := sget none d.bore.rxSeq c
      let d := d.onBore fun b => { b with rxSeq := sput none b.rxSeq c (some ((seq + 1) % 65536)) }
      match want with
      | none => d
      | some w => if w = seq ∨ d.part.bit 0x3044 c = false then d else d.copyDisagrees 3 0 c 0 false := by
  unfold Die.frameSeq
  cases sget none d.bore.rxSeq c with
  | none => rfl
  | some w => exact if_congr (gap_counts_iff ..) rfl rfl

/-- What a frame does once its LINK_SEQ and its COPY have been judged: nothing while its copy is down, the end of a missing
copy, or a place in a vote (R220). -/
def Die.frameVotes (d : Die) (c : Nat) (good : Bool) (e : BoreEvent) : Die :=
  let join (d : Die) (v : Vote) : Die := (d.onBore fun b => { b with votes := b.votes.erase v }).voteJudge
    (if good then { v with copies := v.copies ++ [(c, e)] } else { v with bad := v.bad ++ [c] })
  if d.part.bit 0x3044 c = false then d
  else if good = true ∧ d.bore.missing.contains (c, e) = true then
    d.onBore fun b => { b with missing := b.missing.erase (c, e) }
  else
    let lacking := d.bore.votes.filter fun v => !v.has c
    match (lacking.find? fun v => v.copies.any fun x => x.2 == e), lacking.head? with
    | some v, _ => join d v
    | none, some v => join d v
    | none, none => if good then d.voteJudge { copies := [(c, e)], first := d.now } else d

/-- A frame's LINK_SEQ, then its COPY, then its vote (R220, R222, R428). -/
theorem Die.boreCopy_eq (d : Die) (c : Nat) (f : PairFrame) : d.boreCopy c f =
      let d := if f.ok then d.frameSeq c f.seq else d
      let d := if f.ok && f.field != c && d.part.bit 0x3044 c then d.copyDisagrees 3 0 c 0 false else d
      d.frameVotes c (f.ok && f.field == c) f.body := by
  unfold Die.boreCopy Die.frameVotes
  simp only [ite_ite_same]
  generalize (if f.ok then d.frameSeq c f.seq else d) = d₁
  generalize (if (f.ok && f.field != c && d₁.part.bit 0x3044 c) = true then d₁.copyDisagrees 3 0 c 0 false else d₁) = d₂
  refine if_congr Bool.not_eq_eq_eq_not rfl (if_congr Bool.and_eq_true_iff rfl ?_)
  generalize (d₂.bore.votes.filter fun v => !v.has c) = lacking
  cases lacking.find? fun v => v.copies.any fun x => x.2 == f.body with
  | some v => rfl
  | none => cases lacking.head? <;> rfl

/-- Settles O40: the frame by its three steps, the launch by its guard, and the rest as they stand. -/
theorem boreCopiesVotesAndLaunches : Obligations.BoreCopiesVotesAndLaunches := by
  unfold Obligations.BoreCopiesVotesAndLaunches
  intro s l c f upset hu
  have hr : (s.die l).begin_.ready = true := hu.2
  refine ⟨dieDoes_of_powered s l _ _ rfl hu ?frame, dieDoes_of_powered s l _ _ rfl hu ?window,
    dieDoes_of_powered s l _ _ rfl hu ?reset, dieDoes_of_powered s l _ _ rfl hu ?launch,
    dieDoes_of_powered s l _ _ rfl hu ?part⟩ <;> generalize (s.die l).begin_ = d at hr
  case frame =>
    unfold Die.boreFrame Die.voteAgain
    rw [d.boreCopy_eq, d.frameSeq_eq]
    rfl
  case window => rfl
  case reset => exact d.strobe_copyReset hr
  case launch =>
    have hr' : (d.upsetBy ⟨l, upset⟩).ready = true := hr
    refine (Die.strobe_launch _ hr').trans (Die.admitted_congr _ _ _ ?_)
    exact ite_skip (launch_refused_iff ..) rfl
  case part =>
    unfold Die.partSend
    cases d.bore.cut with
    | none => rfl
    | some k =>
      cases hk : k.parts with
      | nil => simp only [hk]
      | cons r rs =>
        simp only [hk]
        cases d.offer r with
        | none => rfl
        | some d => exact if_congr List.isEmpty_iff rfl rfl

end Sys2Proof.Machine
end

section
/-! PROOFS. Barrier contexts (R231–R233, R241–R243): O41. -/

namespace Sys2Proof.Machine

open Sys2Proof

section ContextWords

variable (k : Nat) (o : Nat)

/-! ### Where a context's words stand (R35) -/

theorem ctxWord_page (ho : o < 0x20) : (ctxAddr k + o) / 0x1000 = ctxPage k := by
  unfold ctxAddr
  omega

theorem ctxWord_off (ho : o < 0x20) : (ctxAddr k + o) % 0x1000 = 0x40 + (k % 64) * 0x20 + o := by
  unfold ctxAddr
  omega

theorem slotOff_ctx (ho : o < 0x20) : slotOff .boreBar (0x40 + (k % 64) * 0x20 + o) = some (o, k % 64) := by
  simp only [slotOff, slotShape]
  rw [if_neg (by omega), if_pos (by omega)]
  congr 2 <;> omega

theorem specOf_ctx (hk : k < 256) (ho : o < 0x20) :
    specOf false (ctxPage k) ((ctxAddr k + o) % 0x1000) = findSpec boreBarRegs o := by
  rw [ctxWord_off k o ho, ctxPage, specOf, pageClass, if_neg (by decide), dieClass_ctx k hk]
  simp only [slotOff_ctx k o ho]
  rfl

theorem dieBlockAddr_ctx (hk : k < 256) (ho : o < 0x20) (h4 : o % 4 = 0) : dieBlockAddr (ctxAddr k + o) = true := by
  have ha : (ctxAddr k + o) % 4 = 0 := by
    unfold ctxAddr
    omega
  simp [dieBlockAddr, ctxWord_page k o ho, ctxWord_off k o ho, ctxPage, dieClass_ctx k hk, indPort_ctx k hk, ha]
  omega

/-- A context's words lie on no other page. -/
theorem ctxWord_ne (hk : k < 256) (ho : o < 0x20) (x : Nat) (hx : 0x8000 ≤ x ∨ x < 0x4000) : ctxAddr k + o ≠ x := by
  unfold ctxAddr ctxPage
  omega

theorem cmdConflict_ctx (hk : k < 256) (ho : o < 0x20) (w : W32) : Die.cmdConflict (ctxAddr k + o) w = false := by
  simp [Die.cmdConflict, ctxWord_ne k o hk ho 0x104C (by decide), ctxWord_ne k o hk ho 0x8040 (by decide)]

theorem Die.maskWrite_ctx (d : Die) (hk : k < 256) (ho : o < 0x20) (w : W32) : d.maskWrite (ctxAddr k + o) w = some w := by
  simp [Die.maskWrite, ctxWord_page k o ho, ctxPage, dieClass_ctx k hk]

theorem ctxWord_not_credit (hk : k < 256) (ho : o < 0x20) :
    ¬ (ctxAddr k + o = 0x18048 ∨ ctxAddr k + o = 0x18088) :=
  not_or.mpr ⟨ctxWord_ne k o hk ho _ (by decide), ctxWord_ne k o hk ho _ (by decide)⟩

end ContextWords

/-! ### ARRIVE -/

/-- The row of ARRIVE: a count and a sense, which command. -/
def ctxArriveRow : RegSpec := ⟨0x010, 1, 0x0, [0], .one, [⟨0, 16, .wo, false, 0, 65535⟩, ⟨16, 1, .wo, false, 0, 1⟩]⟩

theorem ctxArriveRow_storesNothing : storesNothing ctxArriveRow = true := by decide

/-- A write of ARRIVE: refused for a count of 0, and else an arrival (R231, R241). -/
theorem Die.blockWrite_ctxArrive (d : Die) (k : Nat) (hk : k < 256) (w : W32) :
    d.blockWrite (ctxAddr k + 0x10) w =
      if bitsOf w.toNat 0 16 = 0 then d.onPart fun p => p.accessErr (ctxPage k) (ctxAddr k + 0x10) w true
      else d.ctxArrive k (bitsOf w.toNat 16 1) (bitsOf w.toNat 0 16) ⟨1, 0⟩ := by
  have hlt : 0x10 < 0x20 := by decide
  have hpage := ctxWord_page k 0x10 hlt
  have hoff := ctxWord_off k 0x10 hlt
  have hs : specOf false (ctxPage k) ((ctxAddr k + 0x10) % 0x1000) = some (ctxArriveRow, 0) :=
    (specOf_ctx k 0x10 hk hlt).trans rfl
  have hclass : dieClass (ctxPage k) = some .boreBar := dieClass_ctx k hk
  have hnum : (ctxPage k - 4) * 64 + k % 64 = k := by
    unfold ctxPage
    omega
  have hrefused (old n : Nat) : d.writeRefused (ctxAddr k + 0x10) old n w = (bitsOf w.toNat 0 16 == 0) := by
    simp only [Die.writeRefused, hpage, hoff, hclass, slotOff_ctx k 0x10 hlt]
  have hacts (old : Nat) : d.writeActs (ctxAddr k + 0x10) old w =
      d.ctxArrive k (bitsOf w.toNat 16 1) (bitsOf w.toNat 0 16) ⟨1, 0⟩ := by
    simp only [Die.writeActs, hpage, hoff, hclass, slotOff_ctx k 0x10 hlt, hnum]
  have e : (d.part.rd (ctxAddr k + 0x10)).toNat = d.part.num (ctxAddr k + 0x10) := rfl
  unfold Die.blockWrite
  simp only [hs, d.maskWrite_ctx k 0x10 hk hlt, e, storesNothing_merge _ ctxArriveRow_storesNothing,
    storesNothing_refused _ ctxArriveRow_storesNothing, hrefused, cmdConflict_ctx k 0x10 hk hlt,
    ctxWord_not_credit k 0x10 hk hlt, hacts, hpage, Bool.false_or, beq_iff_eq, if_true, if_false, Bool.false_eq_true]

/-! ### CTX_CTL -/

/-- The row of CTX_CTL (R241). -/
def ctxCtlRow : RegSpec := ⟨0x000, 1, 0x0, [0x50], .one, [⟨0, 1, .rw, false, 0, 1⟩, ⟨1, 2, .rw, true, 0, 2⟩,
  ⟨3, 1, .rw, true, 0, 1⟩, ⟨4, 2, .rw, true, 1, 2⟩, ⟨6, 1, .rw, true, 0, 1⟩, ⟨7, 1, .wo, false, 0, 1⟩]⟩

theorem ctxCtlRow_not_w1c : ∀ f ∈ ctxCtlRow.fields, f.acc ≠ .w1c := by decide

theorem ctxCtl_page (k : Nat) : ctxAddr k / 0x1000 = ctxPage k := by
  have h := ctxWord_page k 0 (by decide)
  rwa [Nat.add_zero] at h

theorem ctxCtl_off (k : Nat) : ctxAddr k % 0x1000 = 0x40 + (k % 64) * 0x20 := by
  have h := ctxWord_off k 0 (by decide)
  rwa [Nat.add_zero, Nat.add_zero] at h

theorem specOf_ctxCtl (k : Nat) (hk : k < 256) : specOf false (ctxPage k) (ctxAddr k % 0x1000) = some (ctxCtlRow, 0) := by
  have hf : findSpec boreBarRegs 0 = some (ctxCtlRow, 0) := rfl
  rw [← hf, ← specOf_ctx k 0 hk (by decide), Nat.add_zero]

/-- A kept field of the word a strobe writes: what the word holds, and the bits of the strobe that lie in it. -/
theorem commandWord_bitsOf (p : Part) (isAgg : Bool) (addr b : Nat) (r : RegSpec) (i : Nat)
    (hs : specOf isAgg (addr / 0x1000) (addr % 0x1000) = some (r, i)) (hb : b < 2 ^ 32) (f : FieldSpec) (hf : f ∈ r.fields)
    (ha : f.acc = .rw ∨ f.acc = .rwl) (hlt : f.lo + f.w ≤ 32) :
    bitsOf (p.kept isAgg addr ||| BitVec.ofNat 32 b).toNat f.lo f.w = bitsOf (p.num addr ||| b) f.lo f.w := by
  apply Nat.eq_of_testBit_eq
  intro j
  rw [testBit_bitsOf, testBit_bitsOf]
  by_cases hj : j < f.w
  · have hany : (r.fields.filter fun f => f.acc == .rw || f.acc == .rwl).any
        (fun g => decide (g.lo ≤ j + f.lo ∧ j + f.lo < g.lo + g.w)) = true := by
      rw [List.any_eq_true]
      refine ⟨f, ?_, by simp; omega⟩
      rcases ha with ha | ha <;> simp [hf, ha]
    rw [commandWord_testBit p isAgg addr b (j + f.lo) r i hs hb (by omega), hany, Nat.testBit_or, Bool.true_and]
  · simp [hj]

/-- Setting the lowest bit. -/
theorem or_one_eq (x : Nat) : x ||| 1 = x - x % 2 + 1 := by
  have hdiv : (x ||| 1) / 2 = x / 2 := by
    rw [Nat.or_div_two]
    exact Nat.or_zero _
  have hmod : (x ||| 1) % 2 = 1 := Nat.or_mod_two_eq_one.mpr (.inr rfl)
  omega

/-- A field above the lowest bit does not see it. -/
theorem bitsOf_or_one (x lo w : Nat) (h : 0 < lo) : bitsOf (x ||| 1) lo w = bitsOf x lo w := by
  apply Nat.eq_of_testBit_eq
  intro j
  have h1 : Nat.testBit 1 (j + lo) = false := Nat.testBit_one_eq_true_iff_self_eq_zero.not.mpr (by omega) |> Bool.eq_false_iff.mpr
  rw [testBit_bitsOf, testBit_bitsOf, Nat.testBit_or, h1, Bool.or_false]

/-- A word that differs from what CTX_CTL keeps only in EN, set, takes EN. -/
theorem mergeWord_ctxEn (old w : Nat)
    (hw : ∀ f ∈ ctxCtlRow.fields, f.acc = .rw ∨ f.acc = .rwl → bitsOf w f.lo f.w = bitsOf (old ||| 1) f.lo f.w) :
    mergeWord ctxCtlRow old w = old ||| 1 := by
  have hen : old - bitsOf old 0 1 * 2 ^ 0 = (old ||| 1) - bitsOf (old ||| 1) 0 1 * 2 ^ 0 := by
    rw [or_one_eq]
    unfold bitsOf
    omega
  have hsame : mergeWord ctxCtlRow old w = mergeWord ctxCtlRow (old ||| 1) w := by
    simp only [mergeWord, ctxCtlRow, List.foldl_cons, hen]
  rw [hsame]
  exact mergeWord_same ctxCtlRow _ w hw (fun f hf ha => absurd ha (ctxCtlRow_not_w1c f hf)) fun f _ => bitsOf_scaled_le _ _ _

/-- Such a word is refused where it would change a locked page (R38). -/
theorem refused_ctxEn (lock fixed : Bool) (old w : Nat)
    (hw : ∀ f ∈ ctxCtlRow.fields, f.acc = .rw ∨ f.acc = .rwl → bitsOf w f.lo f.w = bitsOf (old ||| 1) f.lo f.w) :
    ctxCtlRow.fields.any (fieldRefused lock fixed old w) = (old % 2 == 0 && lock) := by
  have hen : bitsOf w 0 1 = 1 := by
    rw [hw ⟨0, 1, .rw, false, 0, 1⟩ (by decide) (.inl rfl), or_one_eq]
    simp only [bitsOf, Nat.pow_zero, Nat.div_one, Nat.pow_one]
    omega
  have hrest (f : FieldSpec) (hf : f ∈ ctxCtlRow.fields.tail) : fieldRefused lock fixed old w f = false := by
    have hlo : 0 < f.lo := (show ∀ f ∈ ctxCtlRow.fields.tail, 0 < f.lo by decide) f hf
    exact fieldRefused_same _ _ _ _ f fun ha => (hw f (List.mem_of_mem_tail hf) ha).trans (bitsOf_or_one _ _ _ hlo)
  have hold : bitsOf old 0 1 = old % 2 := by simp [bitsOf]
  have hfirst : fieldRefused lock fixed old w ⟨0, 1, .rw, false, 0, 1⟩ = (old % 2 == 0 && lock) := by
    simp only [fieldRefused, hen, hold]
    rcases Nat.mod_two_eq_zero_or_one old with h | h <;> simp [h]
  have hsplit : ctxCtlRow.fields = ⟨0, 1, .rw, false, 0, 1⟩ :: ctxCtlRow.fields.tail := rfl
  rw [hsplit, List.any_cons, hfirst, List.any_eq_false.mpr fun f hf => by rw [hrest f hf]; exact Bool.false_ne_true,
    Bool.or_false]

/-- EN as the lowest bit of its word. -/
theorem Part.bit_ctxEn (p : Part) (a : Nat) : p.bit a 0 = (p.num a % 2 == 1) := by
  simp only [Part.bit, Part.fld, Part.num, bitsOf, Nat.pow_zero, Nat.div_one, Nat.pow_one]

/-- The word with EN set. -/
theorem Part.setNum_or_one (p : Part) (a : Nat) : p.setNum a (p.num a ||| 1) = p.setBit a 0 true := by
  rw [or_one_eq]
  simp [Part.setNum, Part.setBit, Part.setFld, withBits, bitsOf, Part.num]

theorem Part.bit_setBit_zero (p : Part) (a : Nat) (hw : swf (resetWord p.isAgg) p.regs = true) :
    (p.setBit a 0 true).bit a 0 = true := by
  rw [Part.bit_ctxEn, ← p.setNum_or_one, Part.num, Part.setNum, p.rd_wr_same _ _ hw, BitVec.toNat_ofNat, or_one_eq, beq_iff_eq]
  omega

/-- A strobe of EN (R38, R232): nothing at an enabled context, refused on a locked page, and else EN set and the context
enabled. -/
theorem Die.blockWrite_ctxEnable (d : Die) (k : Nat) (hk : k < 256) (hw : swf (resetWord d.part.isAgg) d.part.regs = true) :
    d.blockWrite (ctxAddr k) (d.part.kept false (ctxAddr k) ||| 1) =
      if d.part.bit (ctxAddr k) 0 then d
      else if (d.part.hdr (ctxPage k)).lock then
        d.onPart fun p => p.accessErr (ctxPage k) (ctxAddr k) (d.part.kept false (ctxAddr k) ||| 1) true
      else (d.onPart fun p => p.setBit (ctxAddr k) 0 true).ctxEnable k true := by
  have hlt : 0 < 0x20 := by decide
  have hs := specOf_ctxCtl k hk
  have hs' : specOf false (ctxAddr k / 0x1000) (ctxAddr k % 0x1000) = some (ctxCtlRow, 0) := by rw [ctxCtl_page, hs]
  have hfields (f : FieldSpec) (hf : f ∈ ctxCtlRow.fields) (ha : f.acc = .rw ∨ f.acc = .rwl) :
      bitsOf (d.part.kept false (ctxAddr k) ||| 1).toNat f.lo f.w = bitsOf (d.part.num (ctxAddr k) ||| 1) f.lo f.w :=
    commandWord_bitsOf d.part false (ctxAddr k) 1 _ 0 hs' (by decide) f hf ha
      ((show ∀ f ∈ ctxCtlRow.fields, f.lo + f.w ≤ 32 by decide) f hf)
  have h7 : wbit (d.part.kept false (ctxAddr k) ||| 1) 7 = false :=
    commandWord_wbit d.part false (ctxAddr k) 1 7 _ _ hs' (by decide) (by decide) (by decide)
  generalize d.part.kept false (ctxAddr k) ||| 1 = w at hfields h7
  have hclass : dieClass (ctxPage k) = some .boreBar := dieClass_ctx k hk
  have hslot := slotOff_ctx k 0 hlt
  rw [Nat.add_zero] at hslot
  have hnum : (ctxPage k - 4) * 64 + k % 64 = k := by
    unfold ctxPage
    omega
  have hmask := d.maskWrite_ctx k 0 hk hlt w
  have hcmd := cmdConflict_ctx k 0 hk hlt w
  have hcredit := ctxWord_not_credit k 0 hk hlt
  have h8068 := ctxWord_ne k 0 hk hlt 0x8068 (by decide)
  have h8070 := ctxWord_ne k 0 hk hlt 0x8070 (by decide)
  rw [Nat.add_zero] at hmask hcmd hcredit h8068 h8070
  have hlock (b : Bool) : (b && !(ctxAddr k == 0x8068 || ctxAddr k == 0x8070)) = b := by
    simp [h8068, h8070]
  have hrefused (old n : Nat) : d.writeRefused (ctxAddr k) old n w = false := by
    simp only [Die.writeRefused, ctxCtl_page, ctxCtl_off, hclass, hslot]
  have hacts (d' : Die) (old : Nat) : d'.writeActs (ctxAddr k) old w =
      if (old.testBit 0 != d'.part.bit (ctxAddr k) 0) = true then d'.ctxEnable k (d'.part.bit (ctxAddr k) 0) else d' := by
    simp only [Die.writeActs, ctxCtl_page, ctxCtl_off, hclass, hslot, hnum, h7, Bool.false_eq_true, if_false]
  have e : (d.part.rd (ctxAddr k)).toNat = d.part.num (ctxAddr k) := rfl
  unfold Die.blockWrite
  simp only [ctxCtl_page, hs, hmask, e, mergeWord_ctxEn _ _ hfields, refused_ctxEn _ _ _ _ hfields, hlock, hrefused, hcmd, hcredit,
    Bool.or_false, Bool.false_eq_true, if_false, hacts]
  rcases Nat.mod_two_eq_zero_or_one (d.part.num (ctxAddr k)) with hclear | hset
  · have hbit : d.part.bit (ctxAddr k) 0 = false := by rw [Part.bit_ctxEn, hclear]; rfl
    have htest : (d.part.num (ctxAddr k)).testBit 0 = false := by
      rw [Nat.testBit_zero, hclear]
      rfl
    have hne : ¬ d.part.num (ctxAddr k) = d.part.num (ctxAddr k) ||| 1 := by
      rw [or_one_eq]
      omega
    have hafter : (d.onPart fun p => p.setBit (ctxAddr k) 0 true).part.bit (ctxAddr k) 0 = true :=
      d.part.bit_setBit_zero _ hw
    have hword : (d.onPart fun p => p.setNum (ctxAddr k) (d.part.num (ctxAddr k) ||| 1)) =
        d.onPart fun p => p.setBit (ctxAddr k) 0 true :=
      congrArg (fun p => { d with part := p }) (d.part.setNum_or_one (ctxAddr k))
    simp only [hclear, hne, if_false, hword, hafter, htest, hbit]
    rfl
  · have hbit : d.part.bit (ctxAddr k) 0 = true := by rw [Part.bit_ctxEn, hset]; rfl
    have hsame : d.part.num (ctxAddr k) ||| 1 = d.part.num (ctxAddr k) := by
      rw [or_one_eq]
      omega
    have htest : (d.part.num (ctxAddr k)).testBit 0 = true := by
      rw [Nat.testBit_zero, hset]
      rfl
    simp only [hset, hsame, if_true, htest, hbit]
    rfl

/-- The word of a register arrival. -/
theorem arriveWord (n : W16) (sense : Bool) :
    bitsOf (BitVec.ofNat 32 (n.toNat + 65536 * b2n sense)).toNat 0 16 = n.toNat ∧
      bitsOf (BitVec.ofNat 32 (n.toNat + 65536 * b2n sense)).toNat 16 1 = b2n sense := by
  have hn := n.isLt
  have hb : b2n sense < 2 := by cases sense <;> decide
  have hw : (BitVec.ofNat 32 (n.toNat + 65536 * b2n sense)).toNat = n.toNat + 65536 * b2n sense := by
    rw [BitVec.toNat_ofNat]
    omega
  rw [hw]
  refine ⟨?_, ?_⟩
  · unfold bitsOf
    omega
  · unfold bitsOf
    omega

/-- An arrival that is not a remote one is one handshake of the copies (R219), and then dropped or counted (R231). -/
theorem Die.ctxArrive_local (d : Die) (c sense n : Nat) (src : ArriveSrc) (hsrc : src.kind ≠ 2) :
    d.ctxArrive c sense n src =
      let d := if src.kind = 0 then d.onBore fun b => { b with lastCtx := sput none b.lastCtx src.id (some c) } else d
      let v := d.copiesVote (ctxPage c) c { typ := 3, qual := sense, arg0 := c, arg1 := n }
      if v.1 = false then v.2
      else if v.2.part.active (ctxPage c) = false then v.2.ctxDropped c 2 n src
      else if v.2.ctxState c = 0 then v.2.ctxDropped c 1 n src
      else v.2.ctxCountArrival c sense n src := by
  have hremote (x y : Die) (r : Nat) : (if src.kind = 2 ∧ r ≠ 2 then x else y) = y := if_neg fun h => hsrc h.1
  simp only [Die.ctxArrive, hremote, Bool.not_eq_true']

/-- Settles O41: an arrival by its source, RESET as a command bit, EN as a kept field set. -/
theorem barrierContexts : Obligations.BarrierContexts := by
  unfold Obligations.BarrierContexts
  intro s l core ctx sense n upset hu arrive
  have hr : (s.die l).begin_.ready = true := hu.2
  refine ⟨dieDoes_of_ready s l _ _ rfl hu ?core, dieDoes_of_powered s l _ _ rfl hu ?register,
    dieDoes_of_powered s l _ _ rfl hu ?reset, fun hw => dieDoes_of_powered s l _ _ rfl hu ?enable⟩
  case core => exact Die.ctxArrive_local _ _ _ _ ⟨0, core⟩ (show (0 : Nat) ≠ 2 by decide)
  case register =>
    have hr' : ((s.die l).begin_.upsetBy ⟨l, upset⟩).ready = true := hr
    obtain ⟨hcount, hsense⟩ := arriveWord n sense
    have hs : (specOf false ((ctxAddr ctx + 0x10) / 0x1000) ((ctxAddr ctx + 0x10) % 0x1000)).isSome = true := by
      rw [ctxWord_page _ _ (by decide), specOf_ctx _ _ ctx.isLt (by decide)]
      rfl
    refine (Die.writePort_ready _ hr' _ _ _).trans ((Die.regWrite_block _ _ _ .ok hs
      (dieBlockAddr_ctx _ _ ctx.isLt (by decide) (by decide))).trans (Die.admitted_congr _ _ _ ?_))
    rw [Die.blockWrite_ctxArrive _ _ ctx.isLt, hcount, hsense]
    exact if_congr (BitVec.toNat_eq (y := 0)).symm rfl (Die.ctxArrive_local _ _ _ _ _ (by decide))
  case reset => exact (s.die l).begin_.strobe_ctxReset ctx hr ctx.isLt
  case enable =>
    have hs : (specOf false (ctxAddr ctx / 0x1000) (ctxAddr ctx % 0x1000)).isSome = true := by
      rw [ctxCtl_page, specOf_ctxCtl _ ctx.isLt]
      rfl
    have hblock := dieBlockAddr_ctx ctx 0 ctx.isLt (by decide) (by decide)
    rw [Nat.add_zero] at hblock
    refine (Die.strobe_ready _ hr _ _).trans ((Die.regWrite_block _ _ _ .ok hs hblock).trans (Die.admitted_congr _ _ _ ?_))
    exact Die.blockWrite_ctxEnable _ ctx ctx.isLt hw

end Sys2Proof.Machine
end

section
/-! PROOFS. Trace packets, frames and the buffer of Meander (R244–R256): O43. -/

namespace Sys2Proof.Machine

open Sys2Proof

/-- The low-power fields as a record's status sets them (R256). -/
theorem Die.onPart_lowPower (d : Die) (k : Nat) (r : TapRec) : (d.onPart fun p => p.lowPower k r) =
    match r.status with
      | 2 => d.onPart fun p => (p.setBit (coreAddr k + 0x44) 7 true).setFld (coreAddr k + 0x44) 16 8 r.lp
      | 3 => d.onPart fun p => p.setBit (coreAddr k + 0x44) 7 false
      | _ => d := by
  unfold Part.lowPower
  match r.status with
  | 0 | 1 | 2 | 3 => rfl
  | n + 4 => rfl

/-- A resumed core's first outcomes (R247). -/
theorem resumed_iff (resumed brEn : Bool) (n : Nat) :
    (resumed && brEn && decide (0 < n)) = true ↔ resumed = true ∧ brEn = true ∧ 0 < n := by
  rw [Bool.and_eq_true, Bool.and_eq_true, decide_eq_true_iff, and_assoc]

/-- UPLOAD is refused while an upload runs, in WRAPPING and in POST (R253). -/
theorem upload_refused_iff (runs : Bool) (state : Nat) :
    (runs || state == 1 || state == 2) = true ↔ runs = true ∨ state = 1 ∨ state = 2 := by
  rw [Bool.or_eq_true, Bool.or_eq_true, beq_iff_eq, beq_iff_eq, or_assoc]

/-- Settles O43: the record's guards, the strobes of BUF_CMD one by one, and the rest as they stand. -/
theorem traceRecordsFramesAndTheBuffer : Obligations.TraceRecordsFramesAndTheBuffer := by
  unfold Obligations.TraceRecordsFramesAndTheBuffer
  intro s l core r hu low next bufErr
  have hr : (s.die l).begin_.ready = true := hu.2
  have hlow (k : Nat) (d : Die) : (d.onPart fun p => p.lowPower k r) = low k d := d.onPart_lowPower k r
  refine ⟨dieDoes_of_ready s l _ _ rfl hu ?record, dieDoes_of_ready s l _ _ rfl hu ?form, dieDoes_of_ready s l _ _ rfl hu ?send,
    dieDoes_of_powered s l _ _ rfl hu ?sync, dieDoes_of_powered s l _ _ rfl hu ?arm, dieDoes_of_powered s l _ _ rfl hu ?disarm,
    dieDoes_of_powered s l _ _ rfl hu ?trig, dieDoes_of_powered s l _ _ rfl hu ?upload,
    dieDoes_of_ready s l _ _ rfl hu ?part⟩ <;> generalize (s.die l).begin_ = d at hr
  case record =>
    unfold Die.tapRecord
    simp only [hlow, resumed_iff]
    refine if_congr Iff.rfl rfl (if_congr Bool.not_eq_eq_eq_not rfl ?_)
    rfl
  case form => rfl
  case send => rfl
  case sync =>
    refine (d.strobe_coreCtl core hr core.isLt 0x40 (by decide)).trans (d.admitted_congr _ _ ?_)
    have hidle : (!d.part.active (corePage core)) = true ↔ d.part.active (corePage core) = false := Bool.not_eq_eq_eq_not
    exact (show d.syncNow core = _ from if_congr hidle rfl rfl)
  case arm => exact (d.writePort_bufCtl hr 1).trans (d.admitted_congr _ _ rfl)
  case disarm => exact (d.writePort_bufCtl hr 2).trans (d.admitted_congr _ _ rfl)
  case trig => exact (d.writePort_bufCtl hr 4).trans (d.admitted_congr _ _ rfl)
  case upload =>
    refine (d.writePort_bufCtl hr 8).trans (d.admitted_congr _ _ ?_)
    exact if_congr (upload_refused_iff ..) rfl (if_congr List.isEmpty_iff rfl rfl)
  case part =>
    unfold Die.uploadSend
    cases d.meander.upload with
    | nil => rfl
    | cons x rs =>
      cases h : d.offer x with
      | none => simp only [h]
      | some d =>
        simp only [h]
        exact if_congr List.isEmpty_iff rfl rfl

end Sys2Proof.Machine
end

section
/-! PROOFS. Core halts and comparators of Meander (R257–R265): O44. -/

namespace Sys2Proof.Machine

open Sys2Proof

/-! ### Halts -/

/-- RESUME takes a HALTED core, leaves a resuming one, and is refused of any other (R258, R263). -/
theorem Die.resumeWrite_eq (d : Die) (k : Nat) : d.resumeWrite k =
    if d.part.active (corePage k) = true ∧ d.debug k = 3 then
      ((d.setDebug k 4).haltedMap k false).onPart fun p => { p with out := p.out ++ [Out.resumeReq k] }
    else if d.part.active (corePage k) = true ∧ d.debug k = 4 then d
    else d.onPart fun p => p.accessErrOp (corePage k) (coreAddr k + 0x40) 0x20 true 2 := by
  unfold Die.resumeWrite Die.resume
  cases d.part.active (corePage k) with
  | false => simp
  | true => by_cases h3 : d.debug k = 3 <;> simp [h3]

/-! ### Comparators -/

theorem compIndex_off {off j : Nat} (h : compIndex off = some j) : 0x80 ≤ off ∧ off < 0x180 := by
  unfold compIndex at h
  split at h
  next h1 => omega
  next =>
    split at h
    next h2 => omega
    next => simp at h

/-- A write of a comparator's word (R257): stored, and the comparator sent where the page is ACTIVE. -/
theorem Die.blockWrite_comparator (d : Die) (k off j : Nat) (w : W32) (hk : k < 64) (hj : compIndex off = some j)
    (r : RegSpec) (i : Nat) (hs : specOf false (0x100 + k) off = some (r, i)) :
    d.blockWrite (coreAddr k + off) w =
      if r.fields.any (fieldRefused ((d.part.hdr (0x100 + k)).lock) (d.staticFixed (coreAddr k + off))
          (d.part.num (coreAddr k + off)) w.toNat) then
        d.onPart fun p => p.accessErr (0x100 + k) (coreAddr k + off) w true
      else
        let n := mergeWord r (d.part.num (coreAddr k + off)) w.toNat
        let d := if n = d.part.num (coreAddr k + off) then d else d.onPart fun p => p.setNum (coreAddr k + off) n
        if d.part.active (0x100 + k) then d.compSend k j
        else d.onPart fun p => p.setBit (coreAddr k + 0x44) 10 false := by
  obtain ⟨hlo, hhi⟩ := compIndex_off hj
  have hpage := coreAddr_page k off (by omega)
  have hoff := coreAddr_off k off (by omega)
  have hclass := dieClass_core k hk
  have hne (x : Nat) (hx : x < 0x100000) : coreAddr k + off ≠ x := by
    unfold coreAddr
    omega
  have hmask : d.maskWrite (coreAddr k + off) w = some w := by simp [Die.maskWrite, hpage, hclass]
  have hrefused (old n : Nat) : d.writeRefused (coreAddr k + off) old n w = false := by
    simp [Die.writeRefused, hpage, hclass]
  have hcmd : Die.cmdConflict (coreAddr k + off) w = false := by
    simp [Die.cmdConflict, hne 0x104C (by decide), hne 0x8040 (by decide)]
  have hlock (b : Bool) : (b && !(coreAddr k + off == 0x8068 || coreAddr k + off == 0x8070)) = b := by
    simp [hne 0x8068 (by decide), hne 0x8070 (by decide)]
  have hcredit : ¬ (coreAddr k + off = 0x18048 ∨ coreAddr k + off = 0x18088) :=
    not_or.mpr ⟨hne _ (by decide), hne _ (by decide)⟩
  have hctl : ¬ off = 0x40 := by omega
  have hcore : 0x100 + k - 0x100 = k := by omega
  have hacts (d' : Die) (old : Nat) : d'.writeActs (coreAddr k + off) old w =
      if d'.part.active (0x100 + k) then d'.compSend k j else d'.onPart fun p => p.setBit (coreAddr k + 0x44) 10 false := by
    simp only [Die.writeActs, hpage, hoff, hclass, hctl, hj, hcore, if_false]
  have e : (d.part.rd (coreAddr k + off)).toNat = d.part.num (coreAddr k + off) := rfl
  unfold Die.blockWrite
  simp only [hpage, hoff, hs, hmask, e, hlock, hrefused, hcmd, hcredit, hacts, Bool.or_false, Bool.false_eq_true, if_false,
    eq_comm (a := d.part.num (coreAddr k + off))]

/-! ### Matches and the cross-halt -/

/-- COMP_MATCH (R257): each action the core took, on an ACTIVE page. -/
theorem Die.compMatch_eq (d : Die) (k index action : Nat) (hi : index < 12) : d.compMatch k index action =
    if d.part.active (corePage k) = false then d
    else
      let d := d.onPart fun p => p.setBit (coreAddr k + 0x68) index true
      let d := if action.testBit 1 then
          d.bufTrigger (if index < 8 then 1 else 2) k (if index < 8 then index else index - 8) else d
      let d := if action.testBit 0 then d.selfHalt k index else d
      if action.testBit 2 = true ∧ d.meander.cross = none then d.onMeander fun m => { m with cross := some (k, index) }
      else d := by
  have hguard : (!d.part.active (corePage k) || decide (11 < index)) = true ↔ d.part.active (corePage k) = false := by
    have hx : ¬ 11 < index := by omega
    simp [hx]
  unfold Die.compMatch
  refine if_congr hguard rfl (if_congr ?_ rfl rfl)
  rw [Bool.and_eq_true, Option.isNone_iff_eq_none]

/-- CROSS_LAUNCH (R260): the pending cross-halt goes out, or LAUNCH_REFUSED with its cause. -/
theorem Die.crossLaunch_eq (d : Die) : d.crossLaunch = match d.meander.cross with
    | none => d
    | some (k, i) =>
      let d := d.onMeander fun m => { m with cross := none }
      let scope := d.part.fld 0x140070 0 2
      let cause := if scope = 3 then 2 else if d.partition = 0xFFFF then 3 else if d.part.active 3 = false then 4 else 0
      if cause = 0 then d.launchScope 9 1 scope 0xFFFFFFFF 0 (d.part.fld 0x140070 8 8 + 256 * k + 65536 * i) 0
      else d.onPart fun p => p.raise 0x140 16
        { unit := k, opCode := 2, detail := leBytes 1 k ++ leBytes 1 i ++ leBytes 1 cause } := by
  unfold Die.crossLaunch
  cases d.meander.cross with
  | none => rfl
  | some x => simp only [Bool.not_eq_true', ite_not, ne_eq]

/-- Settles O44: the strobes of a core's CTL, a write of a comparator's word, and the debug states as they stand. -/
theorem coreHaltsAndComparators : Obligations.CoreHaltsAndComparators := by
  unfold Obligations.CoreHaltsAndComparators
  intro s l core off w index action upset hu refused halt
  have hr : (s.die l).begin_.ready = true := hu.2
  refine ⟨dieDoes_of_powered s l _ _ rfl hu ?halt, dieDoes_of_powered s l _ _ rfl hu ?resume,
    dieDoes_of_ready s l _ _ rfl hu ?halted, dieDoes_of_ready s l _ _ rfl hu ?drained, dieDoes_of_ready s l _ _ rfl hu ?running,
    ?write, fun r i j h4 hj hs => dieDoes_of_powered s l _ _ rfl hu ?comparator, dieDoes_of_ready s l _ _ rfl hu ?ack,
    dieDoes_of_ready s l _ _ rfl hu ?match_, dieDoes_of_ready s l _ _ rfl hu ?cross⟩ <;>
    generalize (s.die l).begin_ = d at hr
  case halt => exact (d.strobe_coreCtl core hr core.isLt 0x10 (by decide)).trans (d.admitted_congr _ _ rfl)
  case resume =>
    exact (d.strobe_coreCtl core hr core.isLt 0x20 (by decide)).trans (d.admitted_congr _ _ (d.resumeWrite_eq core))
  case halted => exact (ite_not ..).symm
  case drained => exact (ite_not ..).symm
  case running => exact (ite_not ..).symm
  case write =>
    have haddr : (BitVec.ofNat 24 (coreAddr core + off.toNat)).toNat = coreAddr core + off.toNat := by
      have hcore := core.isLt
      have hoff := off.isLt
      rw [BitVec.toNat_ofNat]
      unfold coreAddr
      omega
    exact congrArg (fun a => s.diePowered l fun d => d.writePort a w .ok) haddr.symm
  case comparator =>
    obtain ⟨hlo, hhi⟩ := compIndex_off hj
    have hpage := coreAddr_page core off.toNat off.isLt
    have hoff := coreAddr_off core off.toNat off.isLt
    have hrow : (specOf false ((coreAddr core + off.toNat) / 0x1000) ((coreAddr core + off.toNat) % 0x1000)).isSome = true := by
      rw [hpage, hoff, hs]
      rfl
    have hblock : dieBlockAddr (coreAddr core + off.toNat) = true := by
      have h4' : (coreAddr core + off.toNat) % 4 = 0 := by
        unfold coreAddr
        omega
      have h40 : 0x40 ≤ off.toNat := by omega
      simp [dieBlockAddr, hpage, hoff, dieClass_core core core.isLt, indPort_core core core.isLt, h4', h40]
    refine (d.writePort_ready hr _ _ _).trans ((d.regWrite_block _ _ .ok hrow hblock).trans (d.admitted_congr _ _ ?_))
    exact d.blockWrite_comparator core off.toNat j w core.isLt hj r i hs
  case ack => rfl
  case match_ => exact d.compMatch_eq core index action index.isLt
  case cross => exact (d.upsetBy ⟨l, upset⟩).crossLaunch_eq

end Sys2Proof.Machine
end

section
/-! PROOFS. Compression, the scheduler and gate lists of a lane (R266–R285): O46. -/

namespace Sys2Proof.Machine

open Sys2Proof

/-- A pending list comes into force at a boundary after its arming (R284). -/
theorem gclSwitch_iff (pending : Bool) (a b : Nat) : (pending && decide (a < b)) = true ↔ pending = true ∧ a < b := by
  rw [Bool.and_eq_true, decide_eq_true_iff]

/-- SWITCH_ARM is refused but of a valid list, with no switch pending (R284). -/
theorem gclArm_refused_iff (pending : Bool) (ds : List Nat) :
    (pending = true ∨ ds.sum ≠ 125000 ∨ 0 ∈ ds) ↔ ¬ (pending = false ∧ ds.sum = 125000 ∧ 0 ∉ ds) := by
  rw [← Bool.not_eq_true]
  tauto

/-- The durations of the staging list (R282, R284). -/
theorem gclStage_durations (p : Part) (lane : Option Nat) :
    (p.gclStage lane).map gclDuration =
      (List.range (p.fld (schedBase lane + 0x128) 0 7)).map fun e => p.num (schedBase lane + 0x200 + 4 * e) % 16777216 := by
  simp only [Part.gclStage, List.map_map]
  rfl

/-- Settles O46: each lane operation is the model's, up to how its guard is written. -/
theorem compressionSchedulingAndGates : Obligations.CompressionSchedulingAndGates := by
  unfold Obligations.CompressionSchedulingAndGates
  intro s l resid ecc cycle advance arm sent
  have hcycle (lane : Option Nat) (p : Part) (t : Port) : gateCycle p t lane = cycle lane p t := by
    unfold gateCycle
    simp only [gclSwitch_iff]
    rfl
  have harm (lane : Option Nat) (p : Part) (t : Port) : gclArm p t lane = arm lane p t := by
    unfold gclArm
    rw [gclStage_durations]
    exact ite_skip (gclArm_refused_iff ..) rfl
  have hsent (lane : Option Nat) (p : Part) (t : Port) : sendCell p t lane resid ecc = sent lane p t :=
    if_congr Bool.not_eq_eq_eq_not rfl rfl
  refine ⟨fun hu => ?die, fun hg => ?agg⟩
  case die =>
    have hr : (s.die l).begin_.ready = true := hu.2
    refine ⟨dieDoes_of_ready s l _ _ rfl hu ?done, dieDoes_of_ready s l _ _ rfl hu ?send,
      dieDoes_of_ready s l _ _ rfl hu ?boundary, dieDoes_of_ready s l _ _ rfl hu ?entry,
      dieDoes_of_powered s l _ _ rfl hu ?dieArm⟩ <;> generalize (s.die l).begin_ = d at hr
    case done => rfl
    case send =>
      unfold Die.cellSend
      rw [hsent]
      rfl
    case boundary => exact congrArg d.onLane (funext fun p => funext fun t => hcycle none p t)
    case entry => rfl
    case dieArm =>
      refine (d.strobe_gclArm hr).trans (d.admitted_congr _ _ ?_)
      exact congrArg d.onLane (funext fun p => funext fun t => harm none p t)
  case agg =>
    refine ⟨aggDoes_of_ready s rfl hg ?send, aggDoes_of_ready s rfl hg ?boundary, aggDoes_of_ready s rfl hg ?entry,
      aggDoes_of_ready s rfl hg ?aggArm⟩ <;> generalize s.agg.begin_ = g
    case send => exact congrArg (g.onLane l) (funext fun p => funext fun t => congrArg Prod.snd (hsent (some l) p t))
    case boundary => exact congrArg (g.onLane l) (funext fun p => funext fun t => hcycle (some l) p t)
    case entry => rfl
    case aggArm =>
      refine (g.strobe_gclArm l l.isLt).trans (g.admitted_congr _ _ ?_)
      exact congrArg (g.onLane l) (funext fun p => funext fun t => harm (some l) p t)

end Sys2Proof.Machine
end

section
/-! PROOFS. Firmware messages and the sideband (R328–R331, R366, R407): O53. -/

namespace Sys2Proof.Machine

open Sys2Proof

/-! ### REQ_TAIL -/

/-- The row of REQ_TAIL: an index of 12 bits. -/
def reqTailRow : RegSpec := ⟨0x0C4, 4, 0x20, [0], .one, [⟨0, 12, .rw, false, 0, 4095⟩]⟩

theorem specOf_reqTail (p : Fin 4) : specOf true 2 (0xC4 + 0x20 * p.val) = some (reqTailRow, p.val) := by
  fin_cases p <;> rfl

theorem reqTail_page (p : Fin 4) : (pairReg p + 4) / 0x1000 = 2 := by
  have := p.isLt
  unfold pairReg
  omega

theorem reqTail_off (p : Fin 4) : (pairReg p + 4) % 0x1000 = 0xC4 + 0x20 * p.val := by
  have := p.isLt
  unfold pairReg
  omega

theorem aggBlockAddr_reqTail (p : Fin 4) : aggBlockAddr (pairReg p + 4) = true := by
  fin_cases p <;> rfl

/-- REQ_TAIL is refused where it would change a locked page (R38): every 12-bit value is in its range. -/
theorem refused_reqTail (lock fixed : Bool) (old w : Nat) :
    reqTailRow.fields.any (fieldRefused lock fixed old w) = true ↔ lock = true ∧ w % 4096 ≠ bitsOf old 0 12 := by
  have hw : bitsOf w 0 12 = w % 4096 := by simp [bitsOf]
  have hrange : decide (w % 4096 < 0 ∨ 4095 < w % 4096) = false := decide_eq_false (by omega)
  simp only [reqTailRow, fieldRefused, List.any_cons, List.any_nil, hw, hrange, Bool.false_and, Bool.false_or, Bool.or_false,
    Bool.and_eq_true, bne_iff_ne, and_comm (a := lock = true), ne_comm (a := w % 4096)]

/-- A write of REQ_TAIL (R38, R328). -/
theorem Agg.blockWrite_reqTail (g : Agg) (p : Fin 4) (w : W32) :
    g.blockWrite (pairReg p + 4) w =
      if (g.part.hdr 2).lock = true ∧ w.toNat % 4096 ≠ g.part.fld (pairReg p + 4) 0 12 then
        g.onPart fun q => q.accessErr 2 (pairReg p + 4) w true
      else g.reqTail p w := by
  have hp := p.isLt
  have hloose : reqTailRow.fields.any (g.loosens (pairReg p + 4) (g.part.num (pairReg p + 4)) w) = false := rfl
  have hrefused (old n : Nat) : g.writeRefused (pairReg p + 4) old n = false := by
    simp [Agg.writeRefused, reqTail_page, aggClass]
  have hlock (b : Bool) : (b && !(pairReg p + 4 == 0x3068)) = b := by
    have hne : pairReg p + 4 ≠ 0x3068 := by
      unfold pairReg
      omega
    rw [beq_eq_false_iff_ne.mpr hne, Bool.not_false, Bool.and_true]
  have hmessage : True ∧ 0xC0 ≤ 0xC4 + 0x20 * p.val ∧ 0xC4 + 0x20 * p.val < 0x140 ∧ (0xC4 + 0x20 * p.val) % 0x20 = 4 := by
    exact ⟨trivial, by omega, by omega, by omega⟩
  have hpair : (0xC4 + 0x20 * p.val - 0xC0) / 0x20 = p.val := by omega
  have hport : ¬ ((2 : Nat) = 1 ∧ 0x100 ≤ 0xC4 + 0x20 * p.val ∧ 0xC4 + 0x20 * p.val < 0x140) := by omega
  have e : (g.part.rd (pairReg p + 4)).toNat = g.part.num (pairReg p + 4) := rfl
  unfold Agg.blockWrite
  simp only [reqTail_page, reqTail_off, specOf_reqTail, e, hloose, hrefused, hlock, hport, Bool.or_false, hpair, if_false]
  exact if_congr (refused_reqTail ..) rfl (if_pos hmessage)

/-- Two refusals with one effect. -/
theorem ite_ite_or {α : Type} {p q : Prop} [Decidable p] [Decidable q] (x y : α) :
    (if p then x else if q then x else y) = if p ∨ q then x else y := by
  by_cases hp : p <;> simp [hp]

/-- Settles O53: REQ_TAIL is a write of its word, and the messages act as they stand. -/
theorem firmwareMessagesAndTheSideband : Obligations.FirmwareMessagesAndTheSideband := by
  unfold Obligations.FirmwareMessagesAndTheSideband
  intro s src pair bus w addr res sensor hg answered holder start held a
  refine ⟨aggDoes_of_ready s rfl hg ?tail, aggDoes_of_ready s rfl hg ?ping, aggDoes_of_ready s rfl hg ?info,
    aggDoes_of_ready s rfl hg ?log, aggDoes_of_ready s rfl hg ?read, aggDoes_of_ready s rfl hg ?write,
    aggDoes_of_ready s rfl hg ?scan, aggDoes_of_ready s rfl hg ?done, aggDoes_of_ready s rfl hg ?timeout,
    aggDoes_of_ready s rfl hg ?alert⟩ <;> generalize s.agg.begin_ = g
  case tail =>
    have hs : (specOf true ((pairReg pair + 4) / 0x1000) ((pairReg pair + 4) % 0x1000)).isSome = true := by
      rw [reqTail_page, reqTail_off, specOf_reqTail]
      rfl
    refine (g.barWrite_block _ w .ok hs (aggBlockAddr_reqTail pair)).trans (g.admitted_congr _ _ ?_)
    exact (g.blockWrite_reqTail pair w).trans (ite_ite_or ..)
  case ping => rfl
  case info => rfl
  case log => rfl
  case read => rfl
  case write => rfl
  case scan => rfl
  case done => rfl
  case timeout => rfl
  case alert => exact if_congr decide_eq_true_iff rfl rfl

end Sys2Proof.Machine
end

section
/-! PROOFS. Command rings, their completions and register requests (R364–R375, R390): O56. -/

namespace Sys2Proof.Machine

open Sys2Proof

/-! ### DOORBELL -/

/-- The row of DOORBELL: an index of 32 bits. -/
def doorbellRow : RegSpec := ⟨0x04C, 1, 0x0, [0], .one, [⟨0, 32, .rw, false, 0, 4294967295⟩]⟩

theorem cmdRing_page (i : Fin 64) : (cmdRing i + 0x4C) / 0x1000 = 0x40 + i.val := by
  unfold cmdRing
  omega

theorem cmdRing_off (i : Fin 64) : (cmdRing i + 0x4C) % 0x1000 = 0x4C := by
  unfold cmdRing
  omega

theorem aggClass_cmdRing (i : Fin 64) : aggClass (0x40 + i.val) = some .ring := by
  have := i.isLt
  unfold aggClass
  repeat rw [if_neg (by omega)]
  rw [if_pos (by omega)]

theorem aggPort_cmdRing (i : Fin 64) : aggPort (0x40 + i.val) = none := by
  unfold aggPort
  repeat rw [if_neg (by omega)]

theorem specOf_doorbell (i : Fin 64) : specOf true (0x40 + i.val) 0x4C = some (doorbellRow, 0) := by
  have hcmd : 0x40 + i.val < 0x80 := by omega
  rw [specOf, pageClass, if_pos rfl, aggClass_cmdRing]
  simp only [classRegs, hcmd, if_true]
  rfl

theorem aggBlockAddr_doorbell (i : Fin 64) : aggBlockAddr (cmdRing i + 0x4C) = true := by
  have h4 : (cmdRing i + 0x4C) % 4 = 0 := by
    unfold cmdRing
    omega
  simp [aggBlockAddr, cmdRing_page, cmdRing_off, aggClass_cmdRing, aggPort_cmdRing, h4]

/-- DOORBELL is refused for the register map where it would change a locked page (R38). -/
theorem refused_doorbell (lock fixed : Bool) (old : Nat) (w : W32) (hold : old < 2 ^ 32) :
    doorbellRow.fields.any (fieldRefused lock fixed old w.toNat) = true ↔ lock = true ∧ w.toNat ≠ old := by
  have hlt := w.isLt
  have hw : bitsOf w.toNat 0 32 = w.toNat := by
    unfold bitsOf
    omega
  have ho : bitsOf old 0 32 = old := by
    unfold bitsOf
    omega
  have hrange : decide (w.toNat < 0 ∨ 4294967295 < w.toNat) = false := decide_eq_false (by omega)
  simp only [doorbellRow, fieldRefused, List.any_cons, List.any_nil, hw, ho, hrange, Bool.false_and, Bool.false_or,
    Bool.or_false, Bool.and_eq_true, bne_iff_ne, and_comm (a := lock = true), ne_comm (a := w.toNat)]

/-- A write of DOORBELL (R38, R370). -/
theorem Agg.blockWrite_doorbell (g : Agg) (i : Fin 64) (w : W32) :
    g.blockWrite (cmdRing i + 0x4C) w =
      if (g.part.hdr (0x40 + i)).lock = true ∧ w.toNat ≠ g.tail i then
        g.onPart fun p => p.accessErr (0x40 + i) (cmdRing i + 0x4C) w true
      else g.doorbell i w := by
  have hloose : doorbellRow.fields.any (g.loosens (cmdRing i + 0x4C) (g.part.num (cmdRing i + 0x4C)) w) = false := rfl
  have hrefused (old n : Nat) : g.writeRefused (cmdRing i + 0x4C) old n = false := by
    have hcpl : cplPage (0x40 + i.val) = none := if_neg (by omega)
    simp [Agg.writeRefused, cmdRing_page, cmdRing_off, aggClass_cmdRing, hcpl]
  have hlock (b : Bool) : (b && !(cmdRing i + 0x4C == 0x3068)) = b := by
    have hne : cmdRing i + 0x4C ≠ 0x3068 := by
      unfold cmdRing
      omega
    rw [beq_eq_false_iff_ne.mpr hne, Bool.not_false, Bool.and_true]
  have hconf : ¬ (0x40 + i.val = 1 ∧ 0x100 ≤ 0x4C ∧ 0x4C < 0x140) := by omega
  have hmessage : ¬ (0x40 + i.val = 2 ∧ 0xC0 ≤ 0x4C ∧ 0x4C < 0x140 ∧ 0x4C % 0x20 = 4) := by omega
  have hcmd : (cmdPage (0x40 + i.val)).isSome = true := (cmdPage_isSome _).mpr (by omega)
  have hring : 0x40 + i.val - 0x40 = i.val := by omega
  have e : (g.part.rd (cmdRing i + 0x4C)).toNat = g.part.num (cmdRing i + 0x4C) := rfl
  unfold Agg.blockWrite
  simp only [cmdRing_page, cmdRing_off, specOf_doorbell, e, hloose, hrefused, hlock, hconf, hmessage, hcmd, hring, Bool.or_false,
    if_false, true_and, if_true]
  have hnum : g.part.num (cmdRing i + 0x4C) < 2 ^ 32 := (g.part.rd (cmdRing i + 0x4C)).isLt
  exact if_congr (refused_doorbell _ _ _ w hnum) rfl rfl

/-! ### Fetching and waiting -/

/-- A ring fetches while it is ACTIVE and FETCHING, holds nothing back, has descriptors left, and the gate is open (R337, R367). -/
theorem fetch_barred_iff {α : Type} (active gate : Bool) (run head tail : Nat) (blocked : Option α) :
    (!active || run != 1 || blocked.isSome || head == tail || !gate) = true ↔
      ¬ (active = true ∧ run = 1 ∧ blocked = none ∧ head ≠ tail ∧ gate = true) := by
  cases active <;> cases gate <;> cases blocked <;> simp [or_iff_not_imp_left]

/-- WAIT_POLL reads the value of the descriptor that waits (R368). -/
theorem Agg.waitPoll_eq (g : Agg) (i : Nat) (r : HostRead) : g.waitPoll i r = match (g.ring i).blocked with
    | none => g
    | some b =>
      if g.run i = 2 ∧ g.gateOpen = true ∧ g.ringActive i = true ∧ b.waiting = true then
        match r with
        | .fault _ => (g.onRing i fun x => { x with blocked := some { b with waiting := false, status := some 3 } }).setRun i 1
        | .data bs =>
          if dget b.bytes 0x10 8 ≤ leNat (bs.take 8) then
            (g.onRing i fun x => { x with blocked := some { b with waiting := false } }).setRun i 1
          else g.setRun i 2
      else g := by
  unfold Agg.waitPoll Agg.waitRead
  cases (g.ring i).blocked with
  | none => exact ite_self _
  | some b =>
    by_cases hrun : g.run i = 2 ∧ g.gateOpen = true ∧ g.ringActive i = true
    · obtain ⟨hw, hgate, hactive⟩ := hrun
      cases hb : b.waiting <;> simp only [hw, hgate, hactive, hb] <;> rfl
    · have hall : ¬ (g.run i = 2 ∧ g.gateOpen = true ∧ g.ringActive i = true ∧ b.waiting = true) :=
        fun h => hrun ⟨h.1, h.2.1, h.2.2.1⟩
      simp only [hrun, hall, if_false]

/-- A waiting descriptor times out where a limit is set (R368). -/
theorem wait_barred_iff (run t : Nat) (waiting active : Bool) :
    (run ≠ 2 ∨ (!waiting) = true ∨ t = 0 ∨ (!active) = true) ↔ ¬ (run = 2 ∧ waiting = true ∧ t ≠ 0 ∧ active = true) := by
  rw [Bool.not_eq_true', Bool.not_eq_true', ← Bool.not_eq_true, ← Bool.not_eq_true]
  tauto

/-! ### Completions -/

/-- What ends a running broadcast's descriptor (R366). -/
theorem Agg.bcastStep_eq (g : Agg) (i : Nat) (d : Desc) :
    (if dget d.bytes 0 1 = 9 then g.bcastEnd i d else g) =
      if dget d.bytes 0 1 = 9 ∧ d.phase = DescPhase.running then
        match g.conf.bcasts.find? fun b => b.desc == some (i, d.index) with
        | none => g
        | some b =>
          let g := (g.reach b.time).startSplit b.msg.id
          let b := match g.bcast b.msg.id with | some b => b | none => b
          let st := if b.split then 10 else if b.abort || !b.confirm then 9 else 0
          (g.putBcast { b with desc := none }).descEnd i d st b.totals.1 (b.totals.2.1 + 4294967296 * b.totals.2.2)
      else g := by
  unfold Agg.bcastEnd
  cases g.conf.bcasts.find? fun b => b.desc == some (i, d.index) with
  | none => simp only [ite_self]
  | some b =>
    by_cases hop : dget d.bytes 0 1 = 9 <;> by_cases hphase : d.phase = .running <;>
      simp only [hop, hphase, ne_eq, not_true, not_false_iff, and_self, and_true, and_false, if_true, if_false]
    rfl

/-- A ring resumed is caught up once it holds no completion more (R372). -/
theorem Agg.ringResume_eq (g : Agg) (i : Nat) (good : Option Nat) (w : W32) : g.ringResume i good w =
    if g.ringActive i = false then g.onPart fun p => p.accessErr (0x40 + i) (cmdRing i + 0x58) w true
    else if g.run i = 4 then g.setRun i 1
    else if g.run i ≠ 3 then g.onPart fun p => p.accessErr (0x40 + i) (cmdRing i + 0x58) w true
    else if g.gateOpen = false then g
    else
      let n := g.ovfOf i + (g.ring i).held.length
      let ok := if g.part.active (0x80 + i) = false then 0 else match good with | some k => k | none => n
      let g := g.resumeWrites i n ok
      if g.ovfOf i = 0 ∧ (g.ring i).held = [] then
        (match (g.ring i).blocked with
          | some b => g.setRun i (if b.waiting then 2 else 1)
          | none => g.setRun i 1)
      else g := by
  have hrun (g : Agg) (waiting : Bool) :
      (if waiting then g.setRun i 2 else g.setRun i 1) = g.setRun i (if waiting then 2 else 1) := by cases waiting <;> rfl
  unfold Agg.ringResume
  simp only [hrun, Bool.not_eq_true', List.isEmpty_iff] <;> rfl

/-! ### Register requests -/

/-- A request is issued again where it may be repeated and has tries left (R375). -/
theorem again_iff (op tries limit : Nat) (idem : Bool) :
    ((op == 1 || idem) && decide (tries < limit)) = true ↔ (op = 1 ∨ idem = true) ∧ tries < limit := by
  rw [Bool.and_eq_true, Bool.or_eq_true, beq_iff_eq, decide_eq_true_iff]

/-- Settles O56: DOORBELL is a write of its word; each other command is compared guard by guard. -/
theorem ringsFetchWaitCompleteAndResume : Obligations.RingsFetchWaitCompleteAndResume := by
  unfold Obligations.RingsFetchWaitCompleteAndResume
  intro s i w r wait k gdid id op nwords addr status data fault good h l hg framed c expire
  have off {b : Bool} : (!b) = true ↔ b = false := Bool.not_eq_eq_eq_not
  have unset {b : Bool} : (!b) = true ↔ ¬ b = true := by rw [Bool.not_eq_true', Bool.not_eq_true]
  have hexpire (g : Agg) (q : RegOut) : (g.reach (q.since + g.part.num 0x4048 * 1000)).regExpire q = expire g (some q) := by
    unfold Agg.regExpire
    cases ho : q.owner with
    | node _ _ => simp only [expire, ho]
    | desc i k =>
      simp only [expire, ho]
      exact if_congr (again_iff ..) rfl rfl
    | topology gdid =>
      simp only [expire, ho]
      exact if_congr (again_iff ..) rfl rfl
  have hexpired (g : Agg) (found : Option RegOut) :
      (match found with | some q => (g.reach (q.since + g.part.num 0x4048 * 1000)).regExpire q | none => g) = expire g found := by
    cases found with
    | none => rfl
    | some q => exact hexpire g q
  refine ⟨aggDoes_of_ready s rfl hg ?doorbell, aggDoes_of_ready s rfl hg ?fetch, aggDoes_of_ready s rfl hg ?poll,
    aggDoes_of_ready s rfl hg ?expired, aggDoes_of_ready s rfl hg ?complete, aggDoes_of_ready s rfl hg ?resume,
    aggDoes_of_ready s rfl hg ?lane, aggDoes_of_ready s rfl hg ?remote, aggDoes_of_ready s rfl hg ?load,
    aggDoes_of_ready s rfl hg ?frame, aggDoes_of_ready s rfl hg ?response⟩ <;> generalize s.agg.begin_ = g
  case doorbell =>
    have hs : (specOf true ((cmdRing i + 0x4C) / 0x1000) ((cmdRing i + 0x4C) % 0x1000)).isSome = true := by
      rw [cmdRing_page, cmdRing_off, specOf_doorbell]
      rfl
    refine (g.barWrite_block _ w .ok hs (aggBlockAddr_doorbell i)).trans (g.admitted_congr _ _ ?_)
    exact (g.blockWrite_doorbell i w).trans (ite_ite_or ..)
  case fetch => exact ite_skip (fetch_barred_iff ..) rfl
  case poll => exact g.waitPoll_eq i r
  case expired =>
    unfold Agg.waitExpired
    cases (g.ring i).blocked with
    | none => rfl
    | some b => exact ite_skip (wait_barred_iff ..) rfl
  case complete =>
    unfold Agg.descComplete
    simp only [Agg.bcastStep_eq]
    refine if_congr Iff.rfl rfl ?_
    cases g.desc i k <;> rfl
  case resume => exact g.ringResume_eq i good w
  case lane => exact hexpired g _
  case remote => exact hexpired g _
  case load =>
    simp only [Agg.regTimeout]
    cases g.desc i k with
    | none => rfl
    | some d =>
      cases g.loadId i k with
      | none => rfl
      | some x => exact if_congr Iff.rfl rfl (if_congr (by rw [Bool.and_eq_true, decide_eq_true_iff]) rfl rfl)
  case frame => exact ite_skip unset (if_congr off rfl (if_congr off rfl rfl))
  case response => exact ite_skip unset rfl

end Sys2Proof.Machine
end

section
/-! PROOFS. The chip's supplies, resets, reference and health (R439–R453): O59. -/

namespace Sys2Proof.Machine

open Sys2Proof

/-- HARDWARE_READY comes from supplies valid, or from RESET_N held (R408, R446). -/
theorem notRising_iff (phase : AggPhase) : (phase ≠ .valid ∧ phase ≠ .held) ↔ ¬ (phase = .valid ∨ phase = .held) := by
  rw [not_or]

/-- Settles O59: every command but DRAM_RETRAIN, a command bit, acts as it stands. -/
theorem chipSuppliesResetsAndHealth : Obligations.ChipSuppliesResetsAndHealth := by
  unfold Obligations.ChipSuppliesResetsAndHealth
  intro s role idMode hostEn i v ch mr4 t derate fail none_ lo hi keep volt temp trained
  refine ⟨aggDoes_of_always s rfl ?valid, aggDoes_of_always s rfl ?loss, aggDoes_of_always s rfl ?range,
    aggDoes_of_always s rfl ?within, aggDoes_of_always s rfl ?assert, aggDoes_of_always s rfl ?ready,
    aggDoes_of_always s rfl ?rise, fun hp => ?powered, fun hg => ?up⟩
  case valid => rfl
  case loss => rfl
  case range => rfl
  case within => rfl
  case assert => rfl
  case ready =>
    unfold Agg.hardwareReady
    cases s.agg.begin_.chip.readyFrom with
    | none => rfl
    | some x => exact ite_skip (notRising_iff _) rfl
  case rise => rfl
  case powered =>
    refine ⟨aggDoes_of_supplied s rfl hp ?training, aggDoes_of_supplied s rfl hp ?refLoss, aggDoes_of_supplied s rfl hp ?refReturn,
      aggDoes_of_supplied s rfl hp ?warn, aggDoes_of_supplied s rfl hp ?trip⟩
    case training => cases fail <;> rfl
    case refLoss => rfl
    case refReturn => rfl
    case warn => rfl
    case trip => rfl
  case up =>
    exact ⟨aggDoes_of_ready s rfl hg (Agg.strobe_dramRetrain _), aggDoes_of_ready s rfl hg rfl⟩

end Sys2Proof.Machine
end

section
/-! PROOFS. The discipline machine (R61–R64): what a measurement can do, O26, and the bound of the trim, O25. -/

namespace Sys2Proof.Machine

open Sys2Proof

/-! ### What a measurement does -/

section Servo
variable (x : Disc) (c : DiscCfg) (o : Int)

@[simp] theorem Disc.servo_state : (x.servo c o).1.state = x.state := by unfold Disc.servo; split <;> rfl
@[simp] theorem Disc.servo_unsynced : (x.servo c o).1.unsynced = x.unsynced := by unfold Disc.servo; split <;> rfl
@[simp] theorem Disc.servo_lockRun : (x.servo c o).1.lockRun = x.lockRun := by unfold Disc.servo; split <;> rfl

end Servo

/-- An offset beyond JUMP_LIMIT (R61). -/
def DiscCfg.Beyond (c : DiscCfg) (o : Int) : Prop := c.jump * 65536 < o.natAbs

/-- The consecutive offsets within LOCK_NS after one more (R61). -/
def Disc.runAfter (x : Disc) (c : DiscCfg) (o : Int) : Nat := if o.natAbs ≤ c.lock * 65536 then x.lockRun + 1 else 0

/-- A machine in LOCKING after a measurement it accepts (R61): LOCKED from the eighth offset within LOCK_NS on. -/
def Disc.lockAfter (x : Disc) (c : DiscCfg) (o : Int) : Disc :=
  let y := { (x.servo c o).1 with lockRun := x.runAfter c o }
  if 8 ≤ x.runAfter c o then { y with state := .locked, unsynced := false } else y

/-- A machine that leaves HOLDOVER, before the servo's update (R61, R62): the integral takes the trim in force. -/
def Disc.resumed (x : Disc) : Disc :=
  { x with integ := x.trim, lockRun := 0, state := if x.unsynced then .locking else .locked }

/-- What a measurement can do (the table of R61): step the counter, be refused, or be accepted in one of three states. -/
inductive Disc.Measured (x : Disc) (c : DiscCfg) (o : Int) (now : Nat) : Disc × DiscDo → Prop where
  | stepped (u : Bool) (cause : Option Nat) (why : x.state = .free ∨ x.armed = true ∧ c.Beyond o)
      (hu : x.unsynced = true → u = true) :
      Measured x c o now ({ x.stepped_ with unsynced := u }, { step := some o, accepted := true, unsync := cause })
  | held (hf : x.state ≠ .free) (ha : x.armed = false) (ho : c.Beyond o) :
      Measured x c o now (x.hold c now, { refused := true })
  | stays (hh : x.state = .holdover) (ha : x.armed = false) (ho : c.Beyond o) :
      Measured x c o now (x, { refused := true })
  | locking (hs : x.state = .locking) (ho : ¬ c.Beyond o) :
      Measured x c o now (x.lockAfter c o, { accepted := true, clamp := (x.servo c o).2 })
  | locked (hs : x.state = .locked) (ho : ¬ c.Beyond o) :
      Measured x c o now ((x.servo c o).1, { accepted := true, clamp := (x.servo c o).2 })
  | resumes (hs : x.state = .holdover) (ho : ¬ c.Beyond o) :
      Measured x c o now ((x.resumed.servo c o).1, { accepted := true, clamp := (x.resumed.servo c o).2 })

theorem Disc.measure_measured (x : Disc) (c : DiscCfg) (o : Int) (now : Nat) : x.Measured c o now (x.measure c o now) := by
  unfold Disc.measure
  by_cases ho : c.Beyond o
  · have hout : decide (c.jump * 65536 < o.natAbs) = true := decide_eq_true ho
    simp only [hout, Bool.not_true, Bool.false_eq_true, if_false]
    cases ha : x.armed with
    | false =>
      cases hs : x.state with
      | free => exact .stepped _ _ (.inl hs) id
      | locking => exact .held (by simp [hs]) ha ho
      | locked => exact .held (by simp [hs]) ha ho
      | holdover => exact .stays hs ha ho
    | true =>
      cases hs : x.state with
      | free => exact .stepped _ _ (.inl hs) id
      | locking => exact .stepped _ _ (.inr ⟨ha, ho⟩) id
      | locked => exact .stepped _ _ (.inr ⟨ha, ho⟩) fun _ => rfl
      | holdover => exact .stepped _ _ (.inr ⟨ha, ho⟩) id
  · have hin : decide (c.jump * 65536 < o.natAbs) = false := decide_eq_false ho
    simp only [hin, Bool.not_false, if_true, Disc.servo_lockRun]
    cases hs : x.state with
    | free => exact .stepped _ _ (.inl hs) id
    | locking => exact .locking hs ho
    | locked => exact .locked hs ho
    | holdover => exact .resumes hs ho

/-! ### Steps, refusals and LOCKED -/

/-- LOCKED comes in LOCKING with the eighth offset within LOCK_NS. -/
theorem Disc.runAfter_reached {x : Disc} {c : DiscCfg} {o : Int} (h : 8 ≤ x.runAfter c o) :
    7 ≤ x.lockRun ∧ o.natAbs ≤ c.lock * 65536 := by
  unfold Disc.runAfter at h
  split at h
  next hl => exact ⟨by omega, hl⟩
  next => omega

/-- Settles O26, by what a measurement can do. -/
theorem stepsComeOnlyFromFreeOrArmed : Obligations.StepsComeOnlyFromFreeOrArmed := by
  unfold Obligations.StepsComeOnlyFromFreeOrArmed
  intro x c o now
  have hm := x.measure_measured c o now
  generalize x.measure c o now = r at hm
  change (_ ↔ x.state = .free ∨ x.armed = true ∧ c.Beyond o) ∧ (_ → _ → c.Beyond o → _) ∧ _
  cases hm with
  | stepped u cause why hu =>
    refine ⟨⟨fun _ => why, fun _ => rfl⟩, fun hf ha _ => ?_, fun hy => (DState.noConfusion hy), fun hx hy => ?_⟩
    · rcases why with hs | ⟨ha', _⟩
      · exact absurd hs hf
      · exact absurd (ha.symm.trans ha') Bool.false_ne_true
    · exact absurd (hy.symm.trans (hu hx)) Bool.false_ne_true
  | held hf ha ho => simp [Disc.hold, hf, ha]
  | stays hh ha ho => simp [hh, ha, ho]
  | locking hs ho =>
    unfold Disc.lockAfter
    split
    next hr => simp [hs, ho, Disc.runAfter_reached hr]
    next => simp [hs, ho]
  | locked hs ho => simp [hs, ho]
  | resumes hs ho => simp [hs, ho, Disc.resumed]

/-! ### The bound of the trim -/

theorem natAbs_clampAbs_le (i : Int) (lim : Nat) : (clampAbs i lim).natAbs ≤ lim := by
  unfold clampAbs
  split
  next => omega
  next => split <;> omega

/-- A mean, rounded toward minus infinity, lies within the bound of what it is taken over. -/
theorem natAbs_mean_le (ts : List Int) (lim : Nat) (hne : ts ≠ []) (h : ∀ t ∈ ts, t.natAbs ≤ lim) :
    (ts.sum / (ts.length : Nat)).natAbs ≤ lim := by
  have hpos : (0 : Int) < (ts.length : Nat) := by exact_mod_cast List.length_pos_iff.mpr hne
  have hup : ts.sum ≤ ts.length • (lim : Int) := ts.sum_le_card_nsmul _ fun t ht => by have := h t ht; omega
  have hlo : ts.length • (-(lim : Int)) ≤ ts.sum := ts.card_nsmul_le_sum _ fun t ht => by have := h t ht; omega
  rw [nsmul_eq_mul] at hup hlo
  have h1 : ts.sum / (ts.length : Nat) ≤ lim := Int.ediv_le_of_le_mul hpos (by rwa [mul_comm] at hup)
  have h2 : -(lim : Int) ≤ ts.sum / (ts.length : Nat) := Int.le_ediv_of_mul_le hpos (by rwa [mul_comm] at hlo)
  omega

/-- Trim, integral and the trims kept for the freeze lie within ±200 ppm (R64). -/
def Disc.Within (y : Disc) : Prop :=
  y.trim.natAbs ≤ trimLimit ∧ y.integ.natAbs ≤ trimLimit ∧ ∀ t ∈ y.trims, t.natAbs ≤ trimLimit

section Bound
variable {x : Disc} (c : DiscCfg) (o : Int) (now : Nat) (h : x.Within)
include h

theorem Disc.natAbs_frozen_le : x.frozen.natAbs ≤ trimLimit := by
  unfold Disc.frozen
  split
  next => exact h.1
  next hne => exact natAbs_mean_le _ _ (by simpa using hne) h.2.2

theorem Disc.hold_within : (x.hold c now).Within := by
  refine ⟨?_, h.2⟩
  unfold Disc.hold
  dsimp only
  split
  next => exact Disc.natAbs_frozen_le h
  next => exact h.1

theorem Disc.stepped_within : x.stepped_.Within := ⟨h.1, h.2.1, by simp [Disc.stepped_]⟩

/-- The trims kept after one more. -/
theorem Disc.kept_within {t : Int} (ht : t.natAbs ≤ trimLimit) : ∀ u ∈ (t :: x.trims).take 16, u.natAbs ≤ trimLimit := by
  intro u hu
  rcases List.mem_cons.mp (List.mem_of_mem_take hu) with rfl | hu
  · exact ht
  · exact h.2.2 u hu

theorem Disc.servo_within : (x.servo c o).1.Within := by
  unfold Disc.servo
  split
  next => exact ⟨natAbs_clampAbs_le _ _, natAbs_clampAbs_le _ _, Disc.kept_within h (natAbs_clampAbs_le _ _)⟩
  next => exact ⟨h.1, h.2.1, Disc.kept_within h h.1⟩

theorem Disc.lockAfter_within : (x.lockAfter c o).Within := by
  unfold Disc.lockAfter
  dsimp only
  split
  next => exact Disc.servo_within c o h
  next => exact Disc.servo_within c o h

theorem Disc.resumed_within : x.resumed.Within := ⟨h.1, h.1, h.2.2⟩

theorem Disc.measure_within : (x.measure c o now).1.Within := by
  have hm := x.measure_measured c o now
  generalize x.measure c o now = r at hm
  cases hm with
  | stepped => exact Disc.stepped_within (x := x) h
  | held => exact Disc.hold_within c now h
  | stays => exact h
  | locking => exact Disc.lockAfter_within c o h
  | locked => exact Disc.servo_within c o h
  | resumes => exact Disc.servo_within c o (Disc.resumed_within h)

theorem Disc.miss3_within : (x.miss3 c now).1.Within := by
  unfold Disc.miss3
  cases x.state with
  | free => exact h
  | locking => exact Disc.hold_within c now h
  | locked => exact Disc.hold_within c now h
  | holdover => exact h

theorem Disc.holdTimeout_within : x.holdTimeout.1.Within := by
  unfold Disc.holdTimeout
  cases x.state <;> exact h

theorem Disc.lose_within : (x.lose c now).1.Within := by
  unfold Disc.lose
  cases x.state with
  | free => exact h
  | locking => exact Disc.hold_within c now h
  | locked => exact Disc.hold_within c now h
  | holdover => exact h

end Bound

/-- Settles O25: results of the servo are clamped, a freeze takes a mean of trims within the bound, and what else an input
changes is neither. -/
theorem trimStaysWithin200ppm : Obligations.TrimStaysWithin200ppm := by
  unfold Obligations.TrimStaysWithin200ppm
  intro x c o now Within h
  exact ⟨Disc.measure_within c o now h, Disc.miss3_within c now h, Disc.holdTimeout_within h, Disc.lose_within c now h, h⟩

end Sys2Proof.Machine
end

section
/-! PROOFS. Time passing on an empty queue (R55, R443): O2. The time exchange (R59, R60, R273): O28. -/

namespace Sys2Proof.Machine

open Sys2Proof

/-! ### An empty queue -/

theorem step_of_empty {s : State} (h : s.pending = []) : step s = .next s.tick := by rw [step, h]

theorem State.tick_die (s : State) (l : Lane) : s.tick.die l = (s.die l).whenPowered Die.tick := by
  simp [State.tick, State.die]

theorem Die.whenPowered_off (d : Die) (f : Die → Die) (h : d.powered = false) : d.whenPowered f = d := by
  simp [Die.whenPowered, h]

theorem Die.whenPowered_on (d : Die) (f : Die → Die) (h : d.powered = true) : d.whenPowered f = (f d.begin_).finish := by
  simp [Die.whenPowered, h]

/-- A die with power counts two edges (R55). -/
theorem Die.tick_powered (d : Die) (h : d.powered = true) :
    d.tick = d.onPart fun p => { p with time := BitVec.ofInt 96 ((p.time.toNat : Int) +
      2 * ((p.fld 0x1054 0 4 : Int) * 4294967296 + p.num 0x1058 + (if p.disc.refLoss then 0 else p.disc.trim))) } := by
  have hoff : ¬ (!d.powered) = true := by simp [h]
  simp only [Die.tick, if_neg hoff, Die.onPart]

/-- Settles O2: a step on an empty queue is the model's tick, which is stated part by part. -/
theorem idleStepAdvancesTime : Obligations.IdleStepAdvancesTime := by
  unfold Obligations.IdleStepAdvancesTime
  intro s hq
  refine ⟨s.tick, step_of_empty hq, hq, fun l hp => ?off, fun l hp => ?on, rfl⟩
  case off => rw [s.tick_die, Die.whenPowered_off _ _ hp]
  case on => rw [s.tick_die, Die.whenPowered_on _ _ hp, Die.tick_powered _ ((s.die l).begin_powered.trans hp)]

/-! ### The exchange -/

/-- Settles O28: the aggregator's half acts as it stands, and so does a cell that stands at the die, TIME_RESP by the
exchange it finds open. -/
theorem timeExchangeBetweenAggregatorAndDie : Obligations.TimeExchangeBetweenAggregatorAndDie := by
  unfold Obligations.TimeExchangeBetweenAggregatorAndDie
  intro s l h exch t1 cDown t4 ss
  refine ⟨fun hg => ⟨aggDoes_of_ready s rfl hg rfl, aggDoes_of_ready s rfl hg rfl⟩,
    fun hu => ⟨dieDoes_of_ready s l _ _ rfl hu ?sync, dieDoes_of_ready s l _ _ rfl hu ?resp⟩⟩
  case sync => exact congrArg (Die.received _) (funext fun _ => if_congr Bool.not_eq_eq_eq_not rfl rfl)
  case resp =>
    refine congrArg (Die.received _) (funext fun d => ?_)
    refine if_congr Bool.not_eq_eq_eq_not rfl ?_
    cases d.hw.exch with
    | none => rfl
    | some x =>
      dsimp only
      cases x.up with
      | none => rfl
      | some u => exact if_congr Iff.rfl rfl (if_congr decide_eq_true_iff rfl rfl)

end Sys2Proof.Machine
end

section
/-! PROOFS. Management Ethernet and the aggregator's PTP clock (R378–R384, R389): O58. -/

namespace Sys2Proof.Machine

open Sys2Proof

section Guards
variable (g : Agg)

/-- A link lost acts on a port that was up (R378). -/
theorem Agg.ethDown_eq (i cause : Nat) : g.ethDown i cause =
    if g.part.bit (ethPage i + 0x44) 0 = true then
      g.onPart fun p => ((((p.setBit (ethPage i + 0x44) 0 false).setBit (ethPage i + 0x44) 1 false).inc
        (ethPage i + 0x70)).raise (8 + i) 16 { unit := i, detail := leBytes 1 cause ++ leBytes 8 p.now })
    else g :=
  ite_skip Bool.not_iff_not rfl

/-- PTP_MESSAGE of an exchange is not taken outside ACTIVE, and not off the slave port (R380). -/
theorem Agg.exchange_skipped_iff (i : Nat) : (!g.part.active 4 || g.part.fld 0x4104 6 1 != i) = true ↔
    g.part.active 4 = false ∨ g.part.fld 0x4104 6 1 ≠ i := by
  simp only [Bool.or_eq_true, Bool.not_eq_true', bne_iff_ne]

/-- A message goes on out of the other port of a transparent clock (R382). -/
theorem Agg.forwards_iff (i : Nat) (c : Int) :
    (g.part.bit 0x4100 3 && g.ethUp (1 - i) && c != 0x7FFFFFFFFFFFFFFF) = true ↔
      g.part.bit 0x4100 3 = true ∧ g.ethUp (1 - i) = true ∧ c ≠ 0x7FFFFFFFFFFFFFFF := by
  simp only [Bool.and_eq_true, bne_iff_ne, and_assoc]

end Guards

/-- Settles O58: a forwarded record and a PTP message branch by branch, the command bits as writes, and the rest by the
guard that names when they act. -/
theorem ethernetFramesAndTheClock : Obligations.EthernetFramesAndTheClock := by
  unfold Obligations.EthernetFramesAndTheClock
  intro s h gdid kind bs i cause ok bad m hu framed e down
  refine ⟨aggDoes_of_ready s rfl hu ?record, aggDoes_of_ready s rfl hu (Agg.ethDown_eq _ _ _),
    aggDoes_of_ready s rfl hu ?retrain, aggDoes_of_ready s rfl hu (if_congr ?up rfl rfl), aggDoes_of_ready s rfl hu rfl,
    aggDoes_of_ready s rfl hu (ite_skip Bool.not_iff_not rfl), aggDoes_of_ready s rfl hu ?message,
    aggDoes_of_ready s rfl hu (ite_skip Bool.not_iff_not rfl), aggDoes_of_ready s rfl hu (if_congr ?hold rfl rfl),
    aggDoes_of_ready s rfl hu (Agg.strobe_ptpArmRestep _), aggDoes_of_ready s rfl hu (Agg.strobe_ptpDisarm _)⟩
  case record =>
    exact ite_skip Bool.not_iff_not (if_congr Bool.not_eq_eq_eq_not rfl rfl)
  case retrain =>
    exact (Agg.strobe_ethRetrain _ _ i.isLt).trans (Agg.admitted_congr _ _ _ (Agg.ethDown_eq _ _ _))
  case up => rw [Bool.and_eq_true, Bool.not_eq_true']
  case hold => rw [Bool.and_eq_true, beq_iff_eq]
  case message =>
    generalize s.agg.begin_ = g
    refine if_congr Bool.not_eq_eq_eq_not rfl ?_
    cases m with
    | exchange t1 t2 t3 t4 cs cd gm invalid => exact if_congr (g.exchange_skipped_iff i) rfl rfl
    | message c r timed => exact if_congr (Agg.forwards_iff _ i c) rfl rfl
    | states slave a b => exact ite_skip Bool.not_iff_not rfl

end Sys2Proof.Machine
end

section
/-! PROOFS. Probes of GAUGE, from due to judged (R172–R190): O36. -/

namespace Sys2Proof.Machine

open Sys2Proof

section ProbeGuards

variable (d : Die) (e : Nat)

/-- No scheduled probe falls due outside ACTIVE, or on an engine that is not probed (R179). -/
theorem Die.notDue_iff : (!d.part.active 0x18 || !d.engProbed e) = true ↔ d.part.active 0x18 = false ∨ d.engProbed e = false := by
  rw [Bool.or_eq_true, Bool.not_eq_true', Bool.not_eq_true']

/-- A slot offered is of no use: GAUGE neither ACTIVE nor DRAINING, the reference unit under test, the engine absent, its page
not ACTIVE, or its credit spent (R174, R177, R186). -/
theorem Die.slotUseless_iff :
    (!(d.part.active 0x18 || d.part.pstate 0x18 == .draining) || d.part.bit 0x18044 1 || !d.engPresent e ||
        !d.part.active (engPage e) || !d.hasCredit e) = true ↔
      (d.part.active 0x18 = false ∧ d.part.pstate 0x18 ≠ .draining) ∨ d.part.bit 0x18044 1 = true ∨ d.engPresent e = false ∨
        d.part.active (engPage e) = false ∨ d.hasCredit e = false := by
  simp only [Bool.or_eq_true, Bool.not_eq_true', Bool.or_eq_false_iff, beq_eq_false_iff_ne, or_assoc, ne_eq]

/-- Background probing takes an idle slot while GAUGE is ACTIVE (R178). -/
theorem Die.noBackground_iff (busy : Bool) :
    (busy || !d.part.active 0x18) = true ↔ busy = true ∨ d.part.active 0x18 = false := by
  rw [Bool.or_eq_true, Bool.not_eq_true']

/-- What a probe brings is held while GAUGE or its engine's page is FAULTED (R41). -/
theorem Die.probeHeld_iff :
    d.probeHeld e = true ↔ d.part.pstate 0x18 = .faulted ∨ d.part.pstate (engPage e) = .faulted := by
  rw [Die.probeHeld, Bool.or_eq_true, beq_iff_eq, beq_iff_eq]

/-- An exact-set result, which the reference unit judges, waits for the end of its test (R186). -/
theorem Die.awaitsReference_iff (c : Check) : (c.byRef && d.part.bit 0x18044 1) = true ↔
    c.random = false ∧ c.expect = none ∧ d.part.bit 0x18044 1 = true := by
  rw [Bool.and_eq_true, Check.byRef, Bool.and_eq_true, Bool.not_eq_true', Option.isNone_iff_eq_none, and_assoc]

end ProbeGuards

/-- The probe found by a tag carries it. -/
theorem tag_of_found {ps : List Probe} {tag : Nat} {w : Probe} (h : ps.find? (fun w => w.tag == tag) = some w) : w.tag = tag := by
  simpa using List.find?_some h

/-- Settles O36: a due probe by its history entry, a slot by whether it is of use, a result and a timeout by the probe they
name and by whether what it brings is held. -/
theorem probesAreIssuedAndJudged : Obligations.ProbesAreIssuedAndJudged := by
  unfold Obligations.ProbesAreIssuedAndJudged
  intro s l e busy load tag status res ecc hu
  refine ⟨dieDoes_of_ready s l _ _ rfl hu ?due, dieDoes_of_ready s l _ _ rfl hu ?issue, dieDoes_of_ready s l _ _ rfl hu ?steal,
    dieDoes_of_ready s l _ _ rfl hu ?result, dieDoes_of_ready s l _ _ rfl hu ?timeout⟩ <;> generalize (s.die l).begin_ = d
  case due =>
    unfold Die.probeDue
    cases (d.eng e).since with
    | none => rfl
    | some t0 =>
      refine if_congr (d.notDue_iff e) rfl ?_
      dsimp only
      generalize Part.eccRead _ _ _ _ ecc _ = r
      obtain ⟨x, p⟩ := r
      cases x <;> rfl
  case issue =>
    unfold Die.offerSlot
    refine if_congr (Die.slotUseless_iff _ e) rfl ?_
    simp only [Die.noBackground_iff] <;> rfl
  case steal => rfl
  case result =>
    unfold Die.probeResult
    cases hw : d.gauge.probes.find? fun w => w.tag == tag with
    | none => rfl
    | some w =>
      obtain rfl := tag_of_found hw
      simp only [Die.probeHeld_iff, Die.awaitsReference_iff]
      rfl
  case timeout =>
    unfold Die.probeTimeout
    cases hw : d.gauge.probes.find? fun w => w.tag == tag with
    | none => rfl
    | some w =>
      obtain rfl := tag_of_found hw
      exact if_congr (Die.probeHeld_iff _ w.engine) rfl rfl

end Sys2Proof.Machine
end

section
/-! PROOFS. Cells taken at either end of a lane (R271–R275, R289, R291): O47. -/

namespace Sys2Proof.Machine

open Sys2Proof

section Cells

variable (d : Die) (l id : Nat) (h : CellHdr) (typ : Nat) {p : Prop} [Decidable p] {ok : Bool}

/-- A cell a die takes, by the cell that does not stand. -/
theorem Die.received_eq (r : Bool × Die) (f : Die → Die) : Die.received r f = if r.1 = false then r.2 else f r.2 :=
  ite_skip (by rw [Bool.not_eq_false]) rfl

/-- A payload field out of its range, `p`, refuses the cell with cause 4 (R271, R289). -/
theorem Die.receivedOk_eq (r : Bool × Die) (f : Die → Die) (hp : ok = true ↔ ¬ p) :
    Die.receivedOk r h typ ok f = Die.received r fun d => if p then d.refuseCell h typ 4 else f d :=
  congrArg (Die.received r) (funext fun _ => ite_skip hp rfl)

/-- The same at the aggregator. -/
theorem Agg.receivedOk_eq (r : Bool × Agg) (f : Agg → Agg) (hp : ok = true ↔ ¬ p) :
    Agg.receivedOk r l h typ ok f = Agg.received r fun g => if p then g.refuseCell l h typ 4 else f g :=
  congrArg (Agg.received r) (funext fun _ => ite_skip hp rfl)

/-- A request is performed at once where none waits and its answer has room (R274). -/
theorem Die.performsNow_iff (c : Cell) :
    (d.port.waiting.isEmpty && d.respRoom c) = true ↔ d.port.waiting = [] ∧ d.respRoom c = true := by
  rw [Bool.and_eq_true, List.isEmpty_iff]

/-- A request for an engine that exists is a self-test's, but one that carries the dispute tag in force is merged (R187). -/
theorem Die.selftestCell_eq (engine tag : Nat) (he : engine < 640) : d.selftestCell engine tag =
    if d.disputed = true ∧ d.part.fld 0x8044 16 16 = tag then d
    else d.trigger { engine := engine, trigger := 2, start := d.now } := by
  have hok : engOk engine = true := decide_eq_true he
  simp only [Die.selftestCell, hok, if_true, Bool.and_eq_true, beq_iff_eq]

end Cells

/-- Settles O47: a request by its place in the order of requests, every other cell by its payload fields' ranges. -/
theorem cellsAreCheckedAndTaken : Obligations.CellsAreCheckedAndTaken := by
  unfold Obligations.CellsAreCheckedAndTaken
  intro s l h id op nwords addr target offset engine tag status fill time data bs es end_ e request
  have hrequest (r : Bool × Die) (c : Cell) (es : List Ecc) :
      Die.received r (fun d => d.takeReq h c es) = request r c es :=
    (Die.received_eq r _).trans (if_congr Iff.rfl rfl (if_congr (r.2.performsNow_iff c) rfl rfl))
  have hrange (n k : Nat) : decide (n < k) = true ↔ ¬ k ≤ n := by rw [decide_eq_true_iff, Nat.not_le]
  refine ⟨fun hu => ?die, fun hg => ?agg⟩
  case die =>
    refine ⟨dieDoes_of_ready s l _ _ rfl hu (hrequest ..), dieDoes_of_ready s l _ _ rfl hu (hrequest ..),
      dieDoes_of_ready s l _ _ rfl hu rfl, dieDoes_of_ready s l _ _ rfl hu ?selftest⟩
    case selftest =>
      refine (Die.receivedOk_eq h 7 _ _ (hrange ..)).trans ((Die.received_eq ..).trans (if_congr Iff.rfl rfl ?_))
      exact ite_congr rfl (fun _ => rfl) fun he => Die.selftestCell_eq _ engine tag (Nat.not_le.mp he)
  case agg =>
    exact ⟨aggDoes_of_ready s rfl hg rfl, aggDoes_of_ready s rfl hg (Agg.receivedOk_eq l h 9 _ _ (hrange ..)),
      aggDoes_of_ready s rfl hg (Agg.receivedOk_eq l h 11 _ _ (hrange ..)),
      aggDoes_of_ready s rfl hg (Agg.receivedOk_eq l h 5 _ _ (hrange ..))⟩

end Sys2Proof.Machine
end

section
/-! PROOFS. Gate requests, the head's decision and the responses of Oxbow (R198–R205, R215): O38. -/

namespace Sys2Proof.Machine

open Sys2Proof

/-- Requests are released without a check while the page is OFF or ENABLING with OFF_HOLD 0 (R215). -/
theorem Die.unchecked_iff (d : Die) :
    d.unchecked = true ↔ (d.part.pstate 8 = .off ∨ d.part.pstate 8 = .enabling) ∧ d.part.bit 0x8040 1 = false := by
  rw [Die.unchecked, Bool.and_eq_true, Bool.or_eq_true, beq_iff_eq, beq_iff_eq, Bool.not_eq_true']

/-- The decision of a slot by the state of the page and the first hold cause (R201, R202, R215). -/
theorem Die.oxDecide_eq (d : Die) (s : Nat) : d.oxDecide s =
    if d.part.pstate 8 = .faulted then d
    else if (d.part.pstate 8 = .off ∨ d.part.pstate 8 = .enabling) ∧ d.part.bit 0x8040 1 = false then d.oxRelease s true
    else if d.holdCause s = 0 then d.oxRelease s false
    else d.oxHold s (d.holdCause s) := by
  refine if_congr Iff.rfl rfl (if_congr d.unchecked_iff rfl ?_)
  cases d.holdCause s <;> rfl

/-- DECIDE takes the head's decision where the head is in CHECK, at its decision instant (R201). -/
theorem Die.oxDecideHead_of_head (d : Die) (h : Nat) (hh : d.oxbow.order.head? = some h) : d.oxDecideHead =
    if d.oxState h ≠ 2 then d else (d.onPart fun p => p.reach (sget 0 d.oxbow.due h)).oxDecide h := by
  simp only [Die.oxDecideHead, hh]
  exact (ite_not ..).symm

/-- An abandoned response is presented again 10 µs after it was abandoned (R198). -/
theorem Die.oxRepresent_of_abandoned (d : Die) (t : Nat) (ht : d.oxbow.abandoned = some t) :
    d.oxRepresent = ((d.onPart fun p => p.reach (t + 10000)).onOx fun o => { o with abandoned := none }).present := by
  simp only [Die.oxRepresent, ht]

/-- Settles O38: the decision by its cases; a request, an acceptance and a presentation act as they stand. -/
theorem theGateQueuesAndDecides : Obligations.TheGateQueuesAndDecides := by
  unfold Obligations.TheGateQueuesAndDecides
  intro s l step hu
  refine ⟨dieDoes_of_ready s l _ _ rfl hu rfl, dieDoes_of_ready s l _ _ rfl hu ?decide,
    dieDoes_of_ready s l _ _ rfl hu rfl, dieDoes_of_ready s l _ _ rfl hu ?represent⟩ <;>
    generalize (s.die l).begin_ = d
  case decide =>
    cases hh : d.oxbow.order.head? with
    | none => simp only [Die.oxDecideHead, hh]
    | some h =>
      rw [d.oxDecideHead_of_head h hh]
      exact if_congr Iff.rfl rfl (Die.oxDecide_eq ..)
  case represent =>
    cases ht : d.oxbow.abandoned with
    | none => simp only [Die.oxRepresent, ht]
    | some t => exact d.oxRepresent_of_abandoned t ht

end Sys2Proof.Machine
end

section
/-! PROOFS. Broadcast frames (R227, R311–R313, R378, R379): O50. -/

namespace Sys2Proof.Machine

open Sys2Proof

/-- Settles O50: each command is a frame of the tree. What it brings once its checks have let it in acts as it stands, READY
by whether it comes for an adopted child, and otherwise by whether it comes from a child. -/
theorem broadcastFramesDownTheTree : Obligations.BroadcastFramesDownTheTree := by
  unfold Obligations.BroadcastFramesDownTheTree
  intro s h m e child id op pooled refused unreached node hu framed
  have hframed (g : Agg) (b : TreeBody) (f : Agg → Agg) : g.framed h b f = framed g b f := rfl
  -- Without its body, which unification would evaluate down to the checks of the port.
  clear_value framed
  have does {c : Instr} {b : TreeBody} {F f : Agg → Agg} (hx : exec c s = s.aggReady fun g => g.framed h b F)
      (hf : ∀ g, F g = f g) : AggDoes s c fun g => framed g b f := by
    obtain rfl : F = f := funext hf
    exact aggDoes_of_ready s hx hu (hframed s.agg.begin_ b F)
  refine ⟨does rfl fun _ => rfl, does rfl fun _ => rfl, does rfl fun g => ?ready, does rfl fun _ => rfl,
    does rfl fun _ => rfl⟩
  case ready =>
    unfold Agg.readyReceive
    cases g.bcast id with
    | none => rfl
    | some b =>
      dsimp only
      cases b.adopted.find? fun a => a.1 == node with
      | some a => rfl
      | none => exact ite_skip Bool.not_iff_not rfl

end Sys2Proof.Machine
end

section
/-! PROOFS. Drift, expulsion and the path comparison (R302–R308): O49. -/

namespace Sys2Proof.Machine

open Sys2Proof

/-- The command bits and TAG of the word DIE_DISPUTE_CLR writes (R306). -/
theorem dieDisputeClr_word (tag : W16) :
    wbit (BitVec.ofNat 32 (0x10 + 65536 * tag.toNat)) 4 = true ∧
      wbit (BitVec.ofNat 32 (0x10 + 65536 * tag.toNat)) 7 = false ∧
      (BitVec.ofNat 32 (0x10 + 65536 * tag.toNat)).toNat / 65536 % 65536 = tag.toNat := by
  have hn : (BitVec.ofNat 32 (0x10 + 65536 * tag.toNat)).toNat = 2 ^ 16 * tag.toNat + 0x10 := by
    rw [BitVec.toNat_ofNat]
    omega
  have hbit (i : Nat) (hi : i < 16) :
      wbit (BitVec.ofNat 32 (0x10 + 65536 * tag.toNat)) i = Nat.testBit 0x10 i := by
    rw [wbit, hn, Nat.testBit_two_pow_mul_add _ (by decide), if_pos hi]
  exact ⟨hbit 4 (by decide), hbit 7 (by decide), by omega⟩

/-- A guard that skips what needs one bit at 1 and another at 0. -/
theorem off_or_on_iff (a b : Bool) : (!a || b) = true ↔ ¬ (a = true ∧ b = false) := by
  cases a <;> simp

section Guards

variable (g : Agg) (l : Nat)

/-- The paths of a port differ where its two indications do (R305). -/
theorem Agg.pathsDiffer_iff : g.pathsDiffer l = true ↔ ¬ g.part.bit (dieState l) 1 = g.part.bit (dieState l) 2 :=
  bne_iff_ne

/-- DISPUTE_CLR is refused unless a dispute stands and TAG is the tag in force (R306). -/
theorem Agg.disputeClear_refused_iff (tag : Nat) :
    (!g.part.bit (dieState l) 3 || g.part.fld (dieState l) 16 16 != tag) = true ↔
      ¬ (g.part.bit (dieState l) 3 = true ∧ g.part.fld (dieState l) 16 16 = tag) := by
  rw [off_or_on_iff, bne_eq_false_iff_eq]

end Guards

/-- Settles O49: the timers by when they do nothing, the two frames by what they bring, and the two clears by the bits of the
word written to DIE_STATE. -/
theorem driftExpulsionAndPathComparison : Obligations.DriftExpulsionAndPathComparison := by
  unfold Obligations.DriftExpulsionAndPathComparison
  intro s l h gdid partition entity score result cause tag c hu framed
  refine ⟨aggDoes_of_ready s rfl hu ?period, aggDoes_of_ready s rfl hu ?scored, aggDoes_of_ready s rfl hu ?retry,
    aggDoes_of_ready s rfl hu rfl, aggDoes_of_ready s rfl hu rfl, aggDoes_of_ready s rfl hu ?minute,
    aggDoes_of_ready s rfl hu rfl, aggDoes_of_ready s rfl hu rfl, aggDoes_of_ready s rfl hu ?disagree,
    aggDoes_of_ready s rfl hu ?clear, aggDoes_of_ready s rfl hu ?rec⟩ <;>
    generalize s.agg.begin_ = g
  case period => exact ite_skip (off_or_on_iff _ _) rfl
  case scored => exact ite_skip Bool.not_iff_not rfl
  case retry =>
    unfold Agg.expelRetry
    dsimp only
    cases (((List.range 5).map g.entities).flatten.filter fun e => g.entityDie e == some l.val).find? fun e =>
        (sget {} g.conf.drift.ents e).raised with
    | none => rfl
    | some e => exact ite_skip (off_or_on_iff _ _) rfl
  case minute =>
    unfold Agg.budgetMinute
    exact congrArg (fun f => (List.range 256).foldl f _) (funext₂ fun g i => if_congr Bool.not_eq_eq_eq_not rfl rfl)
  case disagree =>
    unfold Agg.disagree
    cases sget none g.conf.differSince l with
    | none => rfl
    | some t => exact ite_skip (Agg.pathsDiffer_iff _ _) rfl
  case clear =>
    obtain ⟨h4, h7, htag⟩ := dieDisputeClr_word tag
    refine (g.barWrite_dieState l _).trans (g.admitted_congr _ _ ?_)
    simp only [Agg.dieStateWrite, h4, h7, if_true, Bool.false_eq_true, if_false]
    unfold Agg.disputeClear
    rw [htag]
    exact ite_skip (g.disputeClear_refused_iff l _) rfl
  case rec => exact (g.barWrite_dieState l _).trans (g.admitted_congr _ _ rfl)

end Sys2Proof.Machine
end

section
/-! PROOFS. Limits of Levee and the throttle outputs (R343, R349): O55. -/

namespace Sys2Proof.Machine

open Sys2Proof

/-- What a command taken by a ready aggregator does is what its row says: the converse of `aggDoes_of_ready`. -/
theorem AggDoes.finish_eq {s : State} {c : Instr} {f g : Agg → Agg} (h : AggDoes s c f) (hx : exec c s = s.aggReady g)
    (hu : s.agg.phase = .ready) : (g s.agg.begin_).finish = (f s.agg.begin_).finish := by
  rw [AggDoes, hx, s.aggReady_ready g hu] at h
  simpa using congrArg State.agg (Host.Outcome.next.inj h)

/-- A state whose aggregator is ready, with the tray channel 64 PRESENT and at level 3, and no die in its DIE_MASK. -/
def hotChannelState : State := State.reset.onAgg fun g =>
  { g with phase := .ready
           part := (g.part.setBit (chAddr 64) 3 true).setFld (chAddr 64 + 12) 16 2 3 }

/-- Refutes O55: a write of a channel's first word drives the throttle outputs, which follow DIE_MASK (R343). LIMIT_TIGHTEN that
adds die 0 to the mask of a channel at level 3, a stricter limit (R349), takes its THROTTLE to 3; the statement only stores the
word and leaves it 0. -/
theorem not_leveeLimitsAndPowerSteps : ¬ Obligations.LeveeLimitsAndPowerSteps := by
  unfold Obligations.LeveeLimitsAndPowerSteps
  intro h
  have hu : hotChannelState.agg.phase = .ready := rfl
  obtain ⟨-, -, -, -, ⟨htighten, -⟩, -⟩ := (h hotChannelState 0 0 (.sample 0) 0x10000 0 0x3500).1 hu
  have hg := congrArg (fun g => g.part.fld 0x305C 0 2) ((htighten (by decide) (by decide)).finish_eq rfl hu)
  exact absurd hg (by decide +kernel)

end Sys2Proof.Machine
end

section
/-! PROOFS. What the aggregator takes before hardware-ready (R320, R408, R446): O6. -/

namespace Sys2Proof.Machine

open Sys2Proof

/-- How a command that goes to a part answers: one to the aggregator that is not about the chip is taken from hardware-ready
on; every other changes its part. -/
def AsksReadiness (s : State) (a : Answer) : PartId → Bool → Prop
  | .die l, _ => ∃ f : Die → Die, a = .next (s.onDie l f)
  | .agg, true => ∃ f : Agg → Agg, a = .next (s.onAgg f)
  | .agg, false => ∃ f : Agg → Agg, a = s.aggReady f

/-- Every command asks the readiness of the aggregator but those `isChip` lists and those that go to a die: one whose operand
names a part or a lane end goes to that part. -/
theorem exec_asksReadiness (c : Instr) (s : State) : AsksReadiness s (exec c s) (partOf c) (isChip c) := by
  cases c
  case pageEnable part _ | pageDrain part _ | softClear part _ | pageLock part _ | enableDone part _ | drainDone part _
      | drainTimeout part _ | errStatClear part _ _ | errInjectArm part _ _ | registerWrite part _ _
      | unassignedAccess part _ _ | wideLowRead part _ _ | highWordRead part _ _ | indDataRead part _ _ _
      | indDataWrite part _ _ _ | deadlineMiss part _ _ _ | stageHang part _ _ _ =>
    cases part with
    | die l => exact ⟨_, rfl⟩
    | agg => exact ⟨_, rfl⟩
  case cellSend lane _ | gateCycleBoundary lane | gclEntryAdvance lane | gclSwitchArm lane | train lane _ _ _ _ _
      | trainSend lane | linkLock lane | linkLoss lane _ _ _ _ | trainTimeout lane | retrain lane | crcErr lane _ _ =>
    cases lane with
    | die l => exact ⟨_, rfl⟩
    | agg l => exact ⟨_, rfl⟩
  all_goals exact ⟨_, rfl⟩

/-- Settles O6: a command the aggregator takes from hardware-ready on does nothing before. -/
theorem aggregatorNotReadyTakesNothing : Obligations.AggregatorNotReadyTakesNothing := by
  unfold Obligations.AggregatorNotReadyTakesNothing
  intro c s hpart hchip hphase
  have hc := exec_asksReadiness c s
  rw [hpart, hchip] at hc
  obtain ⟨f, hf⟩ := hc
  exact hf.trans (s.aggReady_off f hphase)

end Sys2Proof.Machine
end

section
/-! PROOFS. Firmware cores, checkpoints, updates and boot (R321–R327, R332–R335): O52 and O54. -/

namespace Sys2Proof.Machine

open Sys2Proof

section Guards

variable (g : Agg)

/-- A watchdog acts on a core in RUN while an image runs (R323). -/
theorem Agg.watchdog_skipped_iff (c : Nat) :
    (g.coreState c ≠ 0 ∨ g.mill.running.isNone = true) ↔ ¬ (g.part.fld (0x2080 + 4 * c) 0 2 = 0 ∧ g.mill.running ≠ none) := by
  rw [Option.isNone_iff_eq_none, not_and_or, not_not]
  rfl

/-- The tasks no core in RUN hosts (R323). -/
theorem Agg.strayTasks_eq : g.strayTasks =
    (List.range 8).filter fun t => (g.coresRun.any fun k => g.part.bit (0x2080 + 4 * k) (16 + t)) = false :=
  List.filter_congr fun _ _ => Bool.decide_eq_false.symm

end Guards

/-- Settles O52: each input by when it does nothing, and the self-check by the tasks no core in RUN hosts. -/
theorem firmwareCoresAndCheckpoints : Obligations.FirmwareCoresAndCheckpoints := by
  unfold Obligations.FirmwareCoresAndCheckpoints
  intro s c t lost hu
  refine ⟨aggDoes_of_ready s rfl hu ?expiry, aggDoes_of_ready s rfl hu ?selfCheck, aggDoes_of_ready s rfl hu ?checkpoint,
    aggDoes_of_ready s rfl hu ?late⟩ <;> generalize s.agg.begin_ = g
  case expiry => exact ite_skip (g.watchdog_skipped_iff c) rfl
  case selfCheck =>
    unfold Agg.selfCheck
    refine if_congr Iff.rfl (congrArg Agg.fwUpdate ?_) rfl
    rw [Agg.strayTasks_eq]
    exact ite_skip Option.isSome_iff_ne_none rfl
  case checkpoint => exact if_congr Option.isNone_iff_eq_none rfl rfl
  case late => exact if_congr (iff_of_eq (Bool.not_eq_true' _)) rfl rfl

/-- Settles O54: the commands of a message as they stand, the handoff by the one way back it has, a staging write as a write
through BAR2 at its address, and the loader by when it does nothing. -/
theorem firmwareUpdatesAndBoot : Obligations.FirmwareUpdatesAndBoot := by
  unfold Obligations.FirmwareUpdatesAndBoot
  intro s src crypt off bs a b hu answered back commit
  have hback (g : Agg) : g.newRefuse = if g.updPhase = 3 then back 2 g else g := ite_not ..
  refine ⟨aggDoes_of_ready s rfl hu ?verify, aggDoes_of_ready s rfl hu ?activate, aggDoes_of_ready s rfl hu ?commit,
    aggDoes_of_ready s rfl hu ?revert, aggDoes_of_ready s rfl hu ?verifyDone, aggDoes_of_ready s rfl hu ?newReady,
    aggDoes_of_ready s rfl hu ?newRefuse, aggDoes_of_ready s rfl hu ?handoffTimeout,
    aggDoes_of_ready s rfl hu ?probationEnd, fun hoff => aggDoes_of_ready s rfl hu ?staging,
    aggDoes_of_ready s rfl hu ?romLoad, aggDoes_of_ready s rfl hu ?boot⟩ <;> generalize s.agg.begin_ = g
  case verify => rfl
  case activate => rfl
  case commit => rfl
  case revert => rfl
  case verifyDone => rfl
  case newReady =>
    unfold Agg.newReady
    cases g.mill.staged with
    | none => rfl
    | some i =>
      refine ite_congr rfl (fun _ => rfl) fun hp => ite_congr rfl (fun _ => ?_) fun _ => rfl
      rw [hback, if_pos (not_not.mp hp)]
  case newRefuse => exact hback g
  case handoffTimeout => rfl
  case probationEnd => rfl
  case staging =>
    unfold Agg.bar2Write
    have hreserved : ¬ ((fwRegion ≤ stagingBase + off ∧ stagingBase + off < stagingBase) ∨
        (0xF8C000000 ≤ stagingBase + off ∧ stagingBase + off < 0xF90000000)) := by
      unfold stagingBase
      omega
    have hstaging : stagingBase ≤ stagingBase + off ∧ stagingBase + off < stagingBase + 0x4000000 :=
      ⟨Nat.le_add_right _ _, Nat.add_lt_add_left hoff _⟩
    exact (if_neg hreserved).trans (if_congr (iff_of_eq (Bool.not_eq_true' _)) rfl (if_pos hstaging))
  case romLoad =>
    exact g.strobe_romLoad.trans (g.admitted_congr _ _ (if_congr (and_congr Iff.rfl Option.isNone_iff_eq_none) rfl rfl))
  case boot => exact if_congr (or_congr Iff.rfl Option.isSome_iff_ne_none) rfl rfl

end Sys2Proof.Machine
end

section
/-! PROOFS. Tray parts whose record is refused (R407, R410): O60. -/

namespace Sys2Proof.Machine

open Sys2Proof

/-- A state whose aggregator is ready and runs firmware, with one tray part listed, of KIND 3, and DRAM ACTIVE, so that the event
log takes records. -/
def listedPartState : State := State.reset.onAgg fun g =>
  { g with phase := .ready
           part := (g.part.setFld 0x2044 0 3 1).modHdr 0x20 fun h => { h with state := .active }
           chip := { g.chip with parts := [(3, 0, 0, 0)] } }

/-- Byte `n` of each record the event log holds (R315). -/
def Agg.loggedBytes (n : Nat) (g : Agg) : List (Option Byte) := (sget [] g.conf.rings 16).map fun e => e.bytes[n]?

/-- Refutes O60: the record of a part that is absent names its entry in two bytes of DETAIL (R410), the statement in one. The
DETAIL of a health record begins at byte 36 (R51), so byte 37 of the one that part 0 leaves in the event log is 0, and the
statement gives the KIND there. -/
theorem not_identityReadsAndTheHost : ¬ Obligations.IdentityReadsAndTheHost := by
  unfold Obligations.IdentityReadsAndTheHost
  intro h
  have hu : listedPartState.agg.phase = .ready := rfl
  obtain ⟨-, -, hpart, -⟩ := (h listedPartState 0 0 .absent true true true 0 0 0 0 0 0 []).2 hu
  have hg := congrArg (Agg.loggedBytes 37) (hpart.finish_eq rfl hu)
  exact absurd hg (by decide +kernel)

end Sys2Proof.Machine
end

section
/-! PROOFS. What a die takes without power and before ready (R391, R392, R413, R414): O5, O22, O23. -/

namespace Sys2Proof.Machine

open Sys2Proof

/-! ### Without power -/

/-- The commands a die takes from power on: those that come as accesses through its register port (R392); and DIE_READY, the
next trigger due, and the frames, vote window and snapshot of Bore, which are not asked for readiness either. A die takes every
other command that is not about its supply from ready on. -/
def isBeforeReady : Instr → Bool
  | .earlyAccess .. => true
  | .pageEnable .. | .pageDrain .. | .softClear .. | .pageLock .. | .errStatClear .. | .errInjectArm .. => true
  | .registerWrite .. | .unassignedAccess .. | .wideLowRead .. | .highWordRead .. => true
  | .indDataRead .. | .indDataWrite .. => true
  | .gdidSet .. | .armRestep .. | .disarm .. | .servoEnWrite .. | .switchArm .. | .baseClear .. => true
  | .tapClr .. | .springConfigWrite .. => true
  | .riffleValidate .. | .riffleSwapArm .. | .eddyValidate .. | .eddySwapArm .. => true
  | .refRetest .. | .selftestReq .. | .replayGo .. | .levelWr .. => true
  | .verdictRelease .. | .verdictDiscard .. | .disputeSet .. | .disputeClr .. => true
  | .copyReset .. | .launch .. | .registerArrive .. | .contextReset .. | .contextEnable .. => true
  | .syncNow .. | .coreHalt .. | .coreResume .. | .comparatorWrite .. => true
  | .bufArm .. | .bufDisarm .. | .trigNow .. | .bufUpload .. => true
  | .gclSwitchArm .. | .retrain .. | .readAll .. | .readOne .. => true
  | .dieReady .. | .triggerFire .. => true
  | .boreFrameReceive .. | .voteWindowExpired .. | .snapshotPartSend .. => true
  | _ => false

/-- How a command that goes to a part answers, by whether it is about a supply and whether it is taken before ready: a die is
asked nothing, its power, or its readiness. -/
def AsksPower (s : State) (a : Answer) : PartId → Bool → Bool → Prop
  | .die l, true, _ => ∃ f : Die → Die, a = s.dieSupply l f
  | .die l, false, true => ∃ f : Die → Die, a = s.diePowered l f
  | .die l, false, false => ∃ f : Die → Die, a = s.dieReady l f
  | .agg, _, _ => ∃ f : Agg → Agg, a = .next (s.onAgg f)

/-- Every command asks a die for what its class says: one whose operand names a part or a lane end asks the die it names. -/
theorem exec_asksPower (c : Instr) (s : State) : AsksPower s (exec c s) (partOf c) (isSupply c) (isBeforeReady c) := by
  cases c
  case pageEnable part _ | pageDrain part _ | softClear part _ | pageLock part _ | enableDone part _ | drainDone part _
      | drainTimeout part _ | errStatClear part _ _ | errInjectArm part _ _ | registerWrite part _ _
      | unassignedAccess part _ _ | wideLowRead part _ _ | highWordRead part _ _ | indDataRead part _ _ _
      | indDataWrite part _ _ _ | deadlineMiss part _ _ _ | stageHang part _ _ _ =>
    cases part with
    | die l => exact ⟨_, rfl⟩
    | agg => exact ⟨_, rfl⟩
  case cellSend lane _ | gateCycleBoundary lane | gclEntryAdvance lane | gclSwitchArm lane | train lane _ _ _ _ _
      | trainSend lane | linkLock lane | linkLoss lane _ _ _ _ | trainTimeout lane | retrain lane | crcErr lane _ _ =>
    cases lane with
    | die l => exact ⟨_, rfl⟩
    | agg l => exact ⟨_, rfl⟩
  all_goals exact ⟨_, rfl⟩

/-- Settles O5: a command that asks a die for its power or its readiness does nothing to one without power. -/
theorem dieWithoutPowerTakesNothing : Obligations.DieWithoutPowerTakesNothing := by
  unfold Obligations.DieWithoutPowerTakesNothing
  intro c s l hpart hsupply hpower
  have hc := exec_asksPower c s
  rw [hpart, hsupply] at hc
  cases hready : isBeforeReady c with
  | true =>
    obtain ⟨f, hf⟩ := hready ▸ hc
    exact hf.trans (s.diePowered_off l f hpower)
  | false =>
    obtain ⟨f, hf⟩ := hready ▸ hc
    exact hf.trans (s.dieReady_off l f hpower)

/-! ### Before ready -/

section EarlyAccess

variable {s : State} {l : Lane} {c : Instr}

/-- `dieDoes_of_powered` for a die that need not be ready. -/
theorem dieDoes_of_supplied {f f' : Die → Die} (hx : exec c s = s.diePowered l f) (hp : (s.die l).powered = true)
    (h : f (s.die l).begin_ = f' (s.die l).begin_) : DieDoes s c l f' := by
  rw [DieDoes, hx, s.diePowered_up l f hp]
  exact congrArg Host.Outcome.next (s.onDie_congr l _ _ (by rw [h]))

/-- An access through the register port before ready is an early one, whatever it would do (R392). -/
theorem Die.access_early (d : Die) (f : Die → Die) (hr : d.ready = false) : d.access f = d.early := by
  simp only [Die.access, hr, Bool.false_eq_true, if_false]

/-- A command that is an access through the register port leaves, before ready, what an early access leaves. -/
theorem dieDoes_early {f : Die → Die} (hp : (s.die l).powered = true) (hr : (s.die l).ready = false)
    (hx : exec c s = s.diePowered l fun d => d.access f) : DieDoes s c l Die.early :=
  dieDoes_of_supplied hx hp (Die.access_early _ f hr)

end EarlyAccess

/-- Settles O22: DIE_READY by whether a reference came at all (R391); the rest act as they stand. -/
theorem powerAndReadinessOfADie : Obligations.PowerAndReadinessOfADie := by
  unfold Obligations.PowerAndReadinessOfADie
  intro s l slot ties refAt
  refine ⟨rfl, rfl, fun hp => ⟨dieDoes_of_supplied rfl hp rfl, dieDoes_of_supplied rfl hp ?ready⟩⟩
  case ready =>
    unfold Die.becomeReady
    cases refAt with
    | none => simp
    | some r => simp

/-- Settles O23: each of the commands is an access through the register port, which before ready is an early one. -/
theorem beforeReadyTheRegisterPortDoesNothing : Obligations.BeforeReadyTheRegisterPortDoesNothing := by
  unfold Obligations.BeforeReadyTheRegisterPortDoesNothing
  intro s l page addr w src o ecc hp hr t
  refine ⟨dieDoes_early hp hr rfl, dieDoes_early hp hr rfl, dieDoes_early hp hr rfl, dieDoes_early hp hr rfl,
    dieDoes_early hp hr rfl, dieDoes_early hp hr rfl, dieDoes_early hp hr rfl, dieDoes_early hp hr rfl,
    dieDoes_early hp hr rfl, ?unassigned, fun hport => ?port⟩
  case unassigned =>
    cases o with
    | none => exact dieDoes_early hp hr rfl
    | some x => exact dieDoes_early hp hr rfl
  case port =>
    obtain ⟨a, ha⟩ := Option.isSome_iff_exists.mp hport
    refine ⟨dieDoes_of_supplied rfl hp ?read, dieDoes_of_supplied rfl hp ?write⟩ <;> simp only [ha]
    case read => exact Die.access_early _ _ hr
    case write => exact Die.access_early _ _ hr

end Sys2Proof.Machine
end

section
/-! PROOFS. The outputs of a tray follow their conditions (R414, R425, R453): a command ends by setting those of the part it
reaches, and O7. -/

namespace Sys2Proof.Machine

open Sys2Proof

/-! ### One part -/

/-- The interrupt outputs of a die follow their conditions (R425). -/
def Die.IrqFollows (d : Die) : Prop := d.irq = d.irqNow

/-- FAULT_N of an aggregator follows its conditions (R453). -/
def Agg.FaultFollows (g : Agg) : Prop := g.faultN = (g.phase != .off && g.faultNow)

/-- The conditions do not read the outputs, so outputs set from them still equal them. -/
theorem Die.finish_irqFollows (d : Die) : d.finish.IrqFollows := rfl

theorem Agg.faultFollows_of_set (g : Agg) :
    ({ g with faultN := g.phase != .off && g.faultNow } : Agg).FaultFollows := rfl

theorem Agg.finish_faultFollows (g : Agg) : g.finish.FaultFollows := by
  unfold Agg.finish
  extract_lets _ g'
  exact g'.faultFollows_of_set

section Kept

variable {d : Die} {g : Agg} {s : State}

theorem Die.whenPowered_irqFollows (f : Die → Die) (h : d.IrqFollows) : (d.whenPowered f).IrqFollows := by
  unfold Die.whenPowered
  split
  · exact Die.finish_irqFollows _
  · exact h

theorem Die.whenReady_irqFollows (f : Die → Die) (h : d.IrqFollows) : (d.whenReady f).IrqFollows := by
  unfold Die.whenReady
  split
  · exact Die.finish_irqFollows _
  · exact h

theorem Die.powerUp_irqFollows (slot : Fin 16) (ties : Ties) (h : d.IrqFollows) : (d.powerUp slot ties).IrqFollows := by
  unfold Die.powerUp
  split
  · exact h
  · exact Die.finish_irqFollows _

theorem Die.powerLoss_irqFollows (d : Die) : d.powerLoss.IrqFollows := Die.finish_irqFollows _

theorem Agg.whenReady_faultFollows (f : Agg → Agg) (h : g.FaultFollows) : (g.whenReady f).FaultFollows := by
  unfold Agg.whenReady
  split
  · exact Agg.finish_faultFollows _
  · exact h

theorem Agg.whenPowered_faultFollows (f : Agg → Agg) (h : g.FaultFollows) : (g.whenPowered f).FaultFollows := by
  unfold Agg.whenPowered
  split
  · exact Agg.finish_faultFollows _
  · exact h

theorem Agg.whenSupplied_faultFollows (f : Agg → Agg) : (g.whenSupplied f).FaultFollows := Agg.finish_faultFollows _

theorem Agg.always_faultFollows (f : Agg → Agg) : (g.always f).FaultFollows := Agg.finish_faultFollows _

/-! ### The tray -/

theorem OutputsShown.onDie {l : Lane} {f : Die → Die} (h : OutputsShown s)
    (hf : (s.die l).IrqFollows → (f (s.die l)).IrqFollows) : OutputsShown (s.onDie l f) := by
  obtain ⟨hirq, hfault⟩ := h
  refine ⟨fun k => ?_, hfault⟩
  by_cases hk : k = l
  · subst hk
    rw [s.onDie_die]
    exact hf (hirq k)
  · rw [s.onDie_other l k f hk]
    exact hirq k

theorem OutputsShown.onAgg {f : Agg → Agg} (h : OutputsShown s) (hf : s.agg.FaultFollows → (f s.agg).FaultFollows) :
    OutputsShown (s.onAgg f) := ⟨h.1, hf h.2⟩

theorem OutputsShown.tick (h : OutputsShown s) : OutputsShown s.tick := by
  refine ⟨fun l => ?_, Agg.always_faultFollows _⟩
  rw [s.tick_die]
  exact Die.whenPowered_irqFollows _ (h.1 l)

/-- A command about the supply of a die is DIE_POWER_UP or DIE_POWER_LOSS, and either leaves the die's outputs following. -/
theorem exec_isSupply {c : Instr} (s : State) (hc : isSupply c = true) :
    ∃ (l : Lane) (f : Die → Die), exec c s = s.dieSupply l f ∧ ∀ d : Die, d.IrqFollows → (f d).IrqFollows := by
  cases c
  case diePowerUp l slot ties => exact ⟨l, _, rfl, fun _ h => Die.powerUp_irqFollows slot ties h⟩
  case diePowerLoss l => exact ⟨l, _, rfl, fun d _ => d.powerLoss_irqFollows⟩
  all_goals cases hc

/-- A command about the chip is taken in reset too, from supplies valid on, or always. -/
theorem exec_isChip {c : Instr} (s : State) (hc : isChip c = true) :
    ∃ f : Agg → Agg, exec c s = s.aggPowered f ∨ exec c s = s.aggSupplied f ∨ exec c s = s.aggAlways f := by
  cases c
  case adcConversion | vrmOffExpired => exact ⟨_, .inl rfl⟩
  case ref156Loss | ref156Return | thermWarn | thermalTrip | dramTrainingDone => exact ⟨_, .inr (.inl rfl)⟩
  case suppliesValid | hardwareReady | supplyRange | supplyWithinRange | aggPowerLoss | resetNAssert | resetNRise =>
    exact ⟨_, .inr (.inr rfl)⟩
  all_goals cases hc

/-- A command to a die goes through its supply, its power or its readiness (R391); each keeps what the outputs show. -/
theorem OutputsShown.exec_die {c : Instr} {l : Lane} (h : OutputsShown s) (hpart : partOf c = .die l) :
    ∃ t : State, exec c s = .next t ∧ OutputsShown t := by
  have hc := exec_asksPower c s
  rw [hpart] at hc
  cases hsupply : isSupply c with
  | true =>
    obtain ⟨k, f, hf, hkeep⟩ := exec_isSupply s hsupply
    exact ⟨_, hf, h.onDie (hkeep _)⟩
  | false =>
    rw [hsupply] at hc
    cases hready : isBeforeReady c with
    | true =>
      obtain ⟨f, hf⟩ := hready ▸ hc
      exact ⟨_, hf, h.onDie (Die.whenPowered_irqFollows f)⟩
    | false =>
      obtain ⟨f, hf⟩ := hready ▸ hc
      exact ⟨_, hf, h.onDie (Die.whenReady_irqFollows f)⟩

/-- A command to the aggregator asks its readiness or is about the chip; each entry keeps what the outputs show. -/
theorem OutputsShown.exec_agg {c : Instr} (h : OutputsShown s) (hpart : partOf c = .agg) :
    ∃ t : State, exec c s = .next t ∧ OutputsShown t := by
  cases hchip : isChip c with
  | true =>
    obtain ⟨f, hf | hf | hf⟩ := exec_isChip s hchip
    · exact ⟨_, hf, h.onAgg (Agg.whenPowered_faultFollows f)⟩
    · exact ⟨_, hf, h.onAgg fun _ => Agg.whenSupplied_faultFollows f⟩
    · exact ⟨_, hf, h.onAgg fun _ => Agg.always_faultFollows f⟩
  | false =>
    have hc := exec_asksReadiness c s
    rw [hpart, hchip] at hc
    obtain ⟨f, hf⟩ := hc
    exact ⟨_, hf, h.onAgg (Agg.whenReady_faultFollows f)⟩

/-- Whatever command comes, the outputs of the state answered follow their conditions. -/
theorem OutputsShown.exec (h : OutputsShown s) (c : Instr) : ∃ t : State, exec c s = .next t ∧ OutputsShown t := by
  cases hpart : partOf c with
  | die l => exact h.exec_die hpart
  | agg => exact h.exec_agg hpart

/-- Every step has an answer whose outputs follow their conditions. -/
theorem OutputsShown.step (h : OutputsShown s) : ∃ t : State, step s = .next t ∧ OutputsShown t := by
  unfold Machine.step
  cases s.pending with
  | nil => exact ⟨_, rfl, h.tick⟩
  | cons c cs => exact OutputsShown.exec (s := { s with pending := cs }) h c

end Kept

/-- Settles O7: the step has one answer, the one whose outputs follow their conditions. -/
theorem outputsFollowTheirConditions : Obligations.OutputsFollowTheirConditions := by
  unfold Obligations.OutputsFollowTheirConditions
  intro s t h ht
  obtain ⟨u, hu, hshown⟩ := h.step
  cases ht.symm.trans hu
  exact hshown

end Sys2Proof.Machine
end

section
/-! PROOFS. A step with a command waiting (log entry 37): O1. -/

namespace Sys2Proof.Machine

open Sys2Proof

/-- With a command at the front of the queue a step is that command's meaning, on the queue's rest. -/
theorem step_of_front {s : State} {c : Instr} {cs : List Instr} (h : s.pending = c :: cs) :
    step s = exec c { s with pending := cs } := by rw [step, h]

/-- Settles O1: of the two branches of a step, a waiting command selects the one that runs it. -/
theorem stepRunsTheFrontCommand : Obligations.StepRunsTheFrontCommand := by
  unfold Obligations.StepRunsTheFrontCommand
  intro s c cs h
  exact step_of_front h

end Sys2Proof.Machine
end
